-- ==== Sys2Proof/Word.lean ====
section
/-!
DEFINITION. The words of the Thruster-Control Frame Block: bytes, 32-bit register words and 48-bit step-input words
(00_scope.md R10, 30_encoding.md R96).
-/

namespace Sys2Proof

/-- An unsigned 8-bit value (R10). -/
abbrev Byte := BitVec 8

/-- A 32-bit register value (R9, R10). -/
abbrev Word := BitVec 32

/-- A byte offset in the 4 KiB register window, 0x000 to 0xFFF (20_memory.md R60). -/
abbrev Offset := BitVec 12

/-- A 48-bit step-input word (30_encoding.md R96). -/
abbrev StepWord := BitVec 48

end Sys2Proof
end

