-- ==== Sys2Proof/Config.lean ====
section
/-!
DEFINITION. What an implementation fixes (00_scope.md section 4) and the values the spec leaves open
(93_implementation_defined.md U1, U3, U4).
-/

namespace Sys2Proof

/-- The parameters a model takes as an argument (R5, R6, R7). They are fixed for a machine: no operation writes them
(notes/assumptions/1.md). -/
structure Config where
  /-- RX_DEPTH (R5): bytes the accumulator and the held-frame buffer each hold, START and END counted. -/
  rxDepth : Nat
  /-- TX_DEPTH (R6): stuffed bytes the transmit buffer holds, START and END counted. -/
  txDepth : Nat
  /-- TICK_PERIOD_NS (R7): the period of the TICK event in nanoseconds. -/
  tickPeriodNs : Nat
  deriving DecidableEq, Repr

/-- The defaults of R5, R6 and R7. -/
def Config.default : Config := { rxDepth := 128, txDepth := 128, tickPeriodNs := 1000 }

/-- The legal ranges: RX_DEPTH 3 to 256 (R5), TX_DEPTH 4 to 256 (R6), a positive tick period (92_eei_decisions.md). -/
abbrev Config.Legal (c : Config) : Prop :=
  3 ≤ c.rxDepth ∧ c.rxDepth ≤ 256 ∧ 4 ≤ c.txDepth ∧ c.txDepth ≤ 256 ∧ 0 < c.tickPeriodNs

/-- BLOCK_BASE (R8), left OPEN by the spec: where the platform places the register window (notes/assumptions/2.md). -/
opaque Config.blockBase : Nat

/-- PEER_RESPONSE_WINDOW in nanoseconds (92_eei_decisions.md D37), left OPEN: no rule of the block reads it
(notes/assumptions/2.md). -/
opaque Config.peerResponseWindowNs : Nat

/-- The places where the spec says `any`. -/
inductive FreeUse
  /-- contents of `acc` after RESET (R340, U3) -/
  | acc
  /-- contents of `rxraw` after RESET (R340, U3) -/
  | rxraw
  /-- contents of `rxpay` after RESET (R340, U3) -/
  | rxpay
  /-- contents of `txbuf` after RESET (R340, U3) -/
  | txbuf
  /-- bits 7:0 of a window read at or above the valid length (R262, U1) -/
  | window
  /-- `tx_data` while no byte is offered (R36, U4) -/
  | txData
  deriving DecidableEq, Repr

/-- The byte that the spec leaves open (`any`, R11): for a use, a draw number and an index within that draw. It has no
body, so nothing can be proved of its value (notes/assumptions/6.md, 7.md, 8.md). -/
opaque Config.freeByte : FreeUse → Nat → Nat → Byte

/-- `n` open bytes of one draw. -/
def Config.freeBytes (use : FreeUse) (draw n : Nat) : List Byte :=
  (List.range n).map (Config.freeByte use draw)

end Sys2Proof
end

