-- ==== Sys2Proof/Machine/Codec.lean ====
section
/-!
DEFINITION. The functions of the Frame Codec (40_codec.md R130 to R133) and the address filter (41_accumulator.md R180).
-/

namespace Sys2Proof.Machine

/-- START (R9, R90). -/
abbrev startByte : Byte := 0xAC#8

/-- END (R9, R90). -/
abbrev endByte : Byte := 0xAD#8

/-- ESCAPE (R9, R90). -/
abbrev escapeByte : Byte := 0xAE#8

/-- ESCAPE_MASK (R9, R90). -/
abbrev escapeMask : Byte := 0x80#8

/-- The byte is one of START, END, ESCAPE, which a payload may not carry as it is (R130). -/
def needsStuffing (b : Byte) : Bool := b == startByte || b == endByte || b == escapeByte

/-- `stuff_byte(b)` (R130). -/
def stuffByte (b : Byte) : List Byte :=
  if needsStuffing b then [escapeByte, b ^^^ escapeMask] else [b]

/-- The interior of a frame: every payload byte stuffed, in order (R133). -/
def stuff (payload : List Byte) : List Byte := payload.flatMap stuffByte

/-- `encode(P)` (R133): the frame of a payload. -/
def encodeFrame (payload : List Byte) : List Byte := startByte :: (stuff payload ++ [endByte])

/-- `decode(I)` (R132): the payload of an interior, and whether it ended in a lone ESCAPE (TRUNC). -/
def unstuff : List Byte → List Byte × Bool
  | [] => ([], false)
  | [b] => if b = escapeByte then ([], true) else ([b], false)
  | b :: c :: rest =>
    if b = escapeByte then
      ((c ^^^ escapeMask) :: (unstuff rest).1, (unstuff rest).2)
    else
      (b :: (unstuff (c :: rest)).1, (unstuff (c :: rest)).2)

/-- A unit that unstuffs bytes as they arrive (R136): the payload so far, and whether the previous byte was an unconsumed
ESCAPE. -/
structure Unstuffer where
  out     : List Byte
  escaped : Bool
  deriving DecidableEq, Repr

/-- The unit takes one more interior byte (R136). -/
def Unstuffer.push (u : Unstuffer) (b : Byte) : Unstuffer :=
  if u.escaped then { out := u.out ++ [b ^^^ escapeMask], escaped := false }
  else if b = escapeByte then { out := u.out, escaped := true }
  else { out := u.out ++ [b], escaped := false }

/-- The unit before the first byte. -/
def Unstuffer.start : Unstuffer := { out := [], escaped := false }

/-- One of the eight iterations of `crc8_step`: shift right, and XOR with 0x8C when the low bit was set (R131). -/
def crcShift (v : Byte) : Byte := if v.getLsbD 0 then (v >>> 1) ^^^ 0x8C#8 else v >>> 1

/-- `n` iterations. -/
def crcShifts : Nat → Byte → Byte
  | 0, v => v
  | n + 1, v => crcShifts n (crcShift v)

/-- `crc8_step(c, b)` (R131). -/
def crc8Step (c b : Byte) : Byte := crcShifts 8 (c ^^^ b)

/-- `crc8(bs)` (R131). -/
def crc8 (bs : List Byte) : Byte := bs.foldl crc8Step 0x00#8

/-- `addr_match(b)` (R180): REMOTE_ADDR = 0x14 or DISPLAY_ADDR = 0x20. -/
def addrMatch (b : Byte) : Bool := b == 0x14#8 || b == 0x20#8

end Sys2Proof.Machine
end

