-- ==== Sys2Proof/Machine/Operands.lean ====
section
/-!
DEFINITION. Operand forms: the bits of WDATA an operation takes (30_encoding.md R97), and the values a read widens to 32
bits (00_scope.md R10).
-/

namespace Sys2Proof.Machine

/-- The byte written to TXDATA, CRC or CRCDATA: WDATA[7:0], WDATA[31:8] ignored (R97). -/
def wdataByte (wdata : Word) : Byte := wdata.extractLsb' 0 8

/-- The delay written to GUARD or HOLD: WDATA[15:0], WDATA[31:16] ignored (R97). -/
def wdataDelay (wdata : Word) : BitVec 16 := wdata.extractLsb' 0 16

/-- The enable mask written to IRQEN: `w[31:0] & 0x7D` (R97). -/
def wdataEnable (wdata : Word) : Byte := (wdata &&& 0x7D#32).extractLsb' 0 8

/-- `zext_32` of a byte (R10). -/
def zextByte (b : Byte) : Word := b.setWidth 32

/-- A count field, bits 8:0 of its register, bits 31:9 reading 0 (10_state.md R46 to R48, R50, R51). -/
def zextCount (n : Nat) : Word := (BitVec.ofNat 9 n).setWidth 32

/-- A 16-bit field, bits 31:16 reading 0 (R44, R45, R52). -/
def zextHalf (v : BitVec 16) : Word := v.setWidth 32

end Sys2Proof.Machine
end

