-- ==== Sys2Proof/Syntax.lean ====
section
/-!
DEFINITION. The operations of the block, one constructor per row of opcode_table.json (00_scope.md R2), and the inputs
the agents present to it. A host write carries its whole WDATA; the operation takes the bits its rule names (30_encoding.md
R97). A command of the CMD register carries the ignored bits WDATA[31:4] (R95).
-/

namespace Sys2Proof

/-- One operation of the block: one row of opcode_table.json. -/
inductive Instr
  -- port events (R96, KIND = 00)
  | reset
  | rxByte (b : Byte)
  | tick
  | lineAccept
  | lineIdle
  -- host reads of the registers (R261)
  | rdCmd
  | rdStatus
  | rdIrqen
  | rdErrcause
  | rdTxdata
  | rdCrc
  | rdCrcdata
  | rdGuard
  | rdHold
  | rdRxlen
  | rdPaylen
  | rdTxlen
  | rdState
  | rdAcclen
  | rdTxptr
  | rdTxcnt
  -- commands: host writes of CMD (R95)
  | nop (arg : BitVec 28)
  | txOpen (arg : BitVec 28)
  | txClose (arg : BitVec 28)
  | txCloseCrc (arg : BitVec 28)
  | txGo (arg : BitVec 28)
  | rxRelease (arg : BitVec 28)
  | cmdRsvd6to7 (wdata : Word)
  | cmdRsvd8to15 (wdata : Word)
  -- host writes of the other registers
  | wrStatus (wdata : Word)
  | wrIrqen (wdata : Word)
  | wrErrcause (wdata : Word)
  | wrTxdata (wdata : Word)
  | wrCrc (wdata : Word)
  | wrCrcdata (wdata : Word)
  | wrGuard (wdata : Word)
  | wrHold (wdata : Word)
  | wrRxlen (wdata : Word)
  | wrPaylen (wdata : Word)
  | wrTxlen (wdata : Word)
  | wrState (wdata : Word)
  | wrAcclen (wdata : Word)
  | wrTxptr (wdata : Word)
  | wrTxcnt (wdata : Word)
  -- reserved offsets (R63)
  | rdRsvd200 (off : Offset)
  | rdRsvd100 (off : Offset)
  | rdRsvd080 (off : Offset)
  | rdRsvd040 (off : Offset)
  | wrRsvd200 (off : Offset) (wdata : Word)
  | wrRsvd100 (off : Offset) (wdata : Word)
  | wrRsvd080 (off : Offset) (wdata : Word)
  | wrRsvd040 (off : Offset) (wdata : Word)
  -- buffer windows, index i = off[9:2] (R53)
  | rdRxraw (i : Byte)
  | wrRxraw (i : Byte) (wdata : Word)
  | rdRxpay (i : Byte)
  | wrRxpay (i : Byte) (wdata : Word)
  | rdTxbuf (i : Byte)
  | wrTxbuf (i : Byte) (wdata : Word)
  -- bytes on the bus, by class (R90)
  | wireStart
  | wireEnd
  | wireEscape
  | wireData (b : Byte)
  deriving DecidableEq, Repr

/-- An access as a platform bus presents it to the block: address, size in bytes, direction (20_memory.md R61, R67;
notes/assumptions/14.md). -/
structure BusAccess where
  write : Bool
  addr  : Nat
  size  : Nat
  wdata : Word
  deriving DecidableEq, Repr

/-- One input of the block, not yet decoded. -/
inductive Input
  /-- a 48-bit step-input word (30_encoding.md R96) -/
  | word (w : StepWord)
  /-- a byte that arrives on the bus, delivered by the line receiver (R90, R12; notes/assumptions/5.md) -/
  | wire (b : Byte)
  /-- a host access as the platform bus presents it (R60, R61, R67; notes/assumptions/14.md) -/
  | bus (a : BusAccess)
  deriving DecidableEq, Repr

/-- The agents that act on the block (00_scope.md R12). -/
inductive Agent
  | host
  | lineReceiver
  | lineTransmitter
  | timebase
  | platform
  deriving DecidableEq, Repr

/-- Which agent an operation is an input of (R12, 70_reset_and_hazards.md R360). -/
def Instr.agent : Instr → Agent
  | .reset => .platform
  | .rxByte _ | .wireStart | .wireEnd | .wireEscape | .wireData _ => .lineReceiver
  | .tick => .timebase
  | .lineAccept | .lineIdle => .lineTransmitter
  | .rdCmd | .rdStatus | .rdIrqen | .rdErrcause | .rdTxdata | .rdCrc | .rdCrcdata | .rdGuard | .rdHold | .rdRxlen
  | .rdPaylen | .rdTxlen | .rdState | .rdAcclen | .rdTxptr | .rdTxcnt
  | .nop _ | .txOpen _ | .txClose _ | .txCloseCrc _ | .txGo _ | .rxRelease _ | .cmdRsvd6to7 _ | .cmdRsvd8to15 _
  | .wrStatus _ | .wrIrqen _ | .wrErrcause _ | .wrTxdata _ | .wrCrc _ | .wrCrcdata _ | .wrGuard _ | .wrHold _
  | .wrRxlen _ | .wrPaylen _ | .wrTxlen _ | .wrState _ | .wrAcclen _ | .wrTxptr _ | .wrTxcnt _
  | .rdRsvd200 _ | .rdRsvd100 _ | .rdRsvd080 _ | .rdRsvd040 _
  | .wrRsvd200 _ _ | .wrRsvd100 _ _ | .wrRsvd080 _ _ | .wrRsvd040 _ _
  | .rdRxraw _ | .wrRxraw _ _ | .rdRxpay _ | .wrRxpay _ _ | .rdTxbuf _ | .wrTxbuf _ _ => .host

/-- The byte that an operation receives from the bus, when it receives one (R12, R90, 41_accumulator.md R182). -/
def Instr.received : Instr → Option Byte
  | .rxByte b | .wireData b => some b
  | .wireStart => some 0xAC#8
  | .wireEnd => some 0xAD#8
  | .wireEscape => some 0xAE#8
  | .reset | .tick | .lineAccept | .lineIdle
  | .rdCmd | .rdStatus | .rdIrqen | .rdErrcause | .rdTxdata | .rdCrc | .rdCrcdata | .rdGuard | .rdHold | .rdRxlen
  | .rdPaylen | .rdTxlen | .rdState | .rdAcclen | .rdTxptr | .rdTxcnt
  | .nop _ | .txOpen _ | .txClose _ | .txCloseCrc _ | .txGo _ | .rxRelease _ | .cmdRsvd6to7 _ | .cmdRsvd8to15 _
  | .wrStatus _ | .wrIrqen _ | .wrErrcause _ | .wrTxdata _ | .wrCrc _ | .wrCrcdata _ | .wrGuard _ | .wrHold _
  | .wrRxlen _ | .wrPaylen _ | .wrTxlen _ | .wrState _ | .wrAcclen _ | .wrTxptr _ | .wrTxcnt _
  | .rdRsvd200 _ | .rdRsvd100 _ | .rdRsvd080 _ | .rdRsvd040 _
  | .wrRsvd200 _ _ | .wrRsvd100 _ _ | .wrRsvd080 _ _ | .wrRsvd040 _ _
  | .rdRxraw _ | .wrRxraw _ _ | .rdRxpay _ | .wrRxpay _ _ | .rdTxbuf _ | .wrTxbuf _ _ => none

/-- A port event is an input of another agent than the host (00_scope.md R2, R12). -/
def Instr.isPortEvent (i : Instr) : Bool := i.agent != .host

end Sys2Proof
end

