-- ==== Sys2Proof/WellFormed.lean ====
section
/-!
DEFINITION. When an operation's operands are ones its row of opcode_table.json admits: a reserved offset lies in its row's
range and is a multiple of 4 (20_memory.md R63), a reserved command code is one of its row's (30_encoding.md R95), and a data
byte of the bus is none of START, END, ESCAPE (R90).
-/

namespace Sys2Proof

/-- `off` lies in `lo..hi` and its bits 1:0 are 00 (30_encoding.md R96). -/
abbrev offsetIn (lo hi : Nat) (off : Offset) : Bool :=
  decide (lo ≤ off.toNat) && decide (off.toNat ≤ hi) && decide (off.toNat % 4 = 0)

/-- The command code WDATA[3:0] lies in `lo..hi` (30_encoding.md R95). -/
abbrev codeIn (lo hi : Nat) (wdata : Word) : Bool :=
  decide (lo ≤ wdata.toNat % 16) && decide (wdata.toNat % 16 ≤ hi)

/-- The operands are ones the operation's row admits. -/
def Instr.wellFormed : Instr → Bool
  | .cmdRsvd6to7 wdata => codeIn 6 7 wdata
  | .cmdRsvd8to15 wdata => codeIn 8 15 wdata
  | .rdRsvd200 off | .wrRsvd200 off _ => offsetIn 0x200 0x3FC off
  | .rdRsvd100 off | .wrRsvd100 off _ => offsetIn 0x100 0x1FC off
  | .rdRsvd080 off | .wrRsvd080 off _ => offsetIn 0x080 0x0FC off
  | .rdRsvd040 off | .wrRsvd040 off _ => offsetIn 0x040 0x07C off
  | .wireData b => b != 0xAC#8 && b != 0xAD#8 && b != 0xAE#8
  | .reset | .rxByte _ | .tick | .lineAccept | .lineIdle
  | .rdCmd | .rdStatus | .rdIrqen | .rdErrcause | .rdTxdata | .rdCrc | .rdCrcdata | .rdGuard | .rdHold | .rdRxlen
  | .rdPaylen | .rdTxlen | .rdState | .rdAcclen | .rdTxptr | .rdTxcnt
  | .nop _ | .txOpen _ | .txClose _ | .txCloseCrc _ | .txGo _ | .rxRelease _
  | .wrStatus _ | .wrIrqen _ | .wrErrcause _ | .wrTxdata _ | .wrCrc _ | .wrCrcdata _ | .wrGuard _ | .wrHold _
  | .wrRxlen _ | .wrPaylen _ | .wrTxlen _ | .wrState _ | .wrAcclen _ | .wrTxptr _ | .wrTxcnt _
  | .rdRxraw _ | .wrRxraw _ _ | .rdRxpay _ | .wrRxpay _ _ | .rdTxbuf _ | .wrTxbuf _ _
  | .wireStart | .wireEnd | .wireEscape => true

end Sys2Proof
end

