-- ==== Sys2Proof/Decode.lean ====
section
/-!
DEFINITION. From an input to an operation (30_encoding.md R96, R97, R98), total, rejecting by name what names no operation
(R96, 93_implementation_defined.md U2); then the encoder, and the rows of opcode_table.json.
-/

namespace Sys2Proof

/-- Why an input names no operation (R96, R67, U2). -/
inductive DecodeError
  /-- KIND = 11 (R96) -/
  | kindNone
  /-- KIND = 00 with an EVT of 0x05 or more (R96) -/
  | eventNone (evt : BitVec 6)
  /-- a host access whose OFFSET bits 1:0 are not 00 (R96, R67) -/
  | misaligned (off : Offset)
  /-- a platform bus access that is not 32 bits wide (R67) -/
  | notOneWord (size : Nat)
  /-- a platform bus access outside the block's 4 KiB window (R60) -/
  | outsideWindow (addr : Nat)
  deriving DecidableEq, Repr

/-! ## The fields of a step-input word (R96, R97) -/

/-- KIND, bits 47:46. -/
def wordKind (w : StepWord) : BitVec 2 := w.extractLsb' 46 2

/-- EVT, bits 45:40. -/
def wordEvt (w : StepWord) : BitVec 6 := w.extractLsb' 40 6

/-- DATA, bits 7:0. -/
def wordData (w : StepWord) : Byte := w.extractLsb' 0 8

/-- OFFSET, bits 43:32. -/
def wordOffset (w : StepWord) : Offset := w.extractLsb' 32 12

/-- WDATA, bits 31:0. -/
def wordWdata (w : StepWord) : Word := w.extractLsb' 0 32

/-- `off[1:0] = 00`: the access is one whole register (R61, R96). -/
def offsetAligned (off : Offset) : Bool := off.extractLsb' 0 2 == 0#2

/-- A window index, `off[9:2]` (R97). -/
def windowIndex (off : Offset) : Byte := off.extractLsb' 2 8

/-! ## Decoding (R98) -/

/-- KIND = 00: by EVT. -/
def decodeEvent (evt : BitVec 6) (data : Byte) : Except DecodeError Instr :=
  match evt.toNat with
  | 0x00 => .ok .reset
  | 0x01 => .ok (.rxByte data)
  | 0x02 => .ok .tick
  | 0x03 => .ok .lineAccept
  | 0x04 => .ok .lineIdle
  | _ => .error (.eventNone evt)

/-- A read of a register, by its word offset (R62). -/
def decodeReadReg (reg : BitVec 4) : Instr :=
  match reg.toNat with
  | 0x0 => .rdCmd
  | 0x1 => .rdStatus
  | 0x2 => .rdIrqen
  | 0x3 => .rdErrcause
  | 0x4 => .rdTxdata
  | 0x5 => .rdCrc
  | 0x6 => .rdCrcdata
  | 0x7 => .rdGuard
  | 0x8 => .rdHold
  | 0x9 => .rdRxlen
  | 0xA => .rdPaylen
  | 0xB => .rdTxlen
  | 0xC => .rdState
  | 0xD => .rdAcclen
  | 0xE => .rdTxptr
  | _ => .rdTxcnt

/-- A read in the reserved range 0x040 to 0x3FC, by the row of opcode_table.json its offset falls in (R63). -/
def decodeReadRsvd (off : Offset) : Instr :=
  if off.getLsbD 9 then .rdRsvd200 off
  else if off.getLsbD 8 then .rdRsvd100 off
  else if off.getLsbD 7 then .rdRsvd080 off
  else .rdRsvd040 off

/-- A host read of an aligned offset (R98). -/
def decodeRead (off : Offset) : Instr :=
  match (off.extractLsb' 10 2).toNat with
  | 0 => if off.extractLsb' 6 4 = 0#4 then decodeReadReg (off.extractLsb' 2 4) else decodeReadRsvd off
  | 1 => .rdRxraw (windowIndex off)
  | 2 => .rdRxpay (windowIndex off)
  | _ => .rdTxbuf (windowIndex off)

/-- A write of CMD, by the command code WDATA[3:0] (R95). -/
def decodeCmd (wdata : Word) : Instr :=
  match (wdata.extractLsb' 0 4).toNat with
  | 0x0 => .nop (wdata.extractLsb' 4 28)
  | 0x1 => .txOpen (wdata.extractLsb' 4 28)
  | 0x2 => .txClose (wdata.extractLsb' 4 28)
  | 0x3 => .txCloseCrc (wdata.extractLsb' 4 28)
  | 0x4 => .txGo (wdata.extractLsb' 4 28)
  | 0x5 => .rxRelease (wdata.extractLsb' 4 28)
  | 0x6 => .cmdRsvd6to7 wdata
  | 0x7 => .cmdRsvd6to7 wdata
  | _ => .cmdRsvd8to15 wdata

/-- A write of a register, by its word offset (R62). -/
def decodeWriteReg (reg : BitVec 4) (wdata : Word) : Instr :=
  match reg.toNat with
  | 0x0 => decodeCmd wdata
  | 0x1 => .wrStatus wdata
  | 0x2 => .wrIrqen wdata
  | 0x3 => .wrErrcause wdata
  | 0x4 => .wrTxdata wdata
  | 0x5 => .wrCrc wdata
  | 0x6 => .wrCrcdata wdata
  | 0x7 => .wrGuard wdata
  | 0x8 => .wrHold wdata
  | 0x9 => .wrRxlen wdata
  | 0xA => .wrPaylen wdata
  | 0xB => .wrTxlen wdata
  | 0xC => .wrState wdata
  | 0xD => .wrAcclen wdata
  | 0xE => .wrTxptr wdata
  | _ => .wrTxcnt wdata

/-- A write in the reserved range, by its row (R63). -/
def decodeWriteRsvd (off : Offset) (wdata : Word) : Instr :=
  if off.getLsbD 9 then .wrRsvd200 off wdata
  else if off.getLsbD 8 then .wrRsvd100 off wdata
  else if off.getLsbD 7 then .wrRsvd080 off wdata
  else .wrRsvd040 off wdata

/-- A host write of an aligned offset (R98). -/
def decodeWrite (off : Offset) (wdata : Word) : Instr :=
  match (off.extractLsb' 10 2).toNat with
  | 0 => if off.extractLsb' 6 4 = 0#4 then decodeWriteReg (off.extractLsb' 2 4) wdata else decodeWriteRsvd off wdata
  | 1 => .wrRxraw (windowIndex off) wdata
  | 2 => .wrRxpay (windowIndex off) wdata
  | _ => .wrTxbuf (windowIndex off) wdata

/-- A step-input word to its operation (R98), or the name of what it is not (R96). -/
def decodeWord (w : StepWord) : Except DecodeError Instr :=
  match (wordKind w).toNat with
  | 0 => decodeEvent (wordEvt w) (wordData w)
  | 1 => if offsetAligned (wordOffset w) then .ok (decodeRead (wordOffset w)) else .error (.misaligned (wordOffset w))
  | 2 =>
    if offsetAligned (wordOffset w) then .ok (decodeWrite (wordOffset w) (wordWdata w))
    else .error (.misaligned (wordOffset w))
  | _ => .error .kindNone

/-- A byte of the bus by its class (R90). -/
def decodeWire (b : Byte) : Instr :=
  if b = 0xAC#8 then .wireStart
  else if b = 0xAD#8 then .wireEnd
  else if b = 0xAE#8 then .wireEscape
  else .wireData b

/-! ## Encoding (R96) -/

/-- The step-input word of a port event. -/
def eventWord (evt : BitVec 6) (data : Byte) : StepWord := 0b00#2 ++ evt ++ 0#32 ++ data

/-- The step-input word of a host read. -/
def readWord (off : Offset) : StepWord := 0b01#2 ++ 0#2 ++ off ++ 0#32

/-- The step-input word of a host write. -/
def writeWord (off : Offset) (wdata : Word) : StepWord := 0b10#2 ++ 0#2 ++ off ++ wdata

/-- The step-input word of the command `code`, with `arg` in the ignored bits (R95). -/
def cmdWord (code : BitVec 4) (arg : BitVec 28) : StepWord := writeWord 0x000#12 (arg ++ code)

/-- The offset of word `i` of the window that `off[11:10] = sel` selects (R62). -/
def windowOffset (sel : BitVec 2) (i : Byte) : Offset := sel ++ i ++ 0#2

/-- An aligned 32-bit access of the register window, as the host port carries it (R61). -/
def accessWord (write : Bool) (off : Offset) (wdata : Word) : StepWord :=
  if write then writeWord off wdata else readWord off

/-- An access of the platform bus as the block's host port sees it: 32 bits wide and inside the window at BLOCK_BASE,
or refused (R60, R61, R67). The misaligned ones are refused by the word's decoding. -/
def decodeBus (a : BusAccess) : Except DecodeError Instr :=
  if a.size ≠ 4 then .error (.notOneWord a.size)
  else if Config.blockBase ≤ a.addr ∧ a.addr < Config.blockBase + 0x1000 then
    decodeWord (accessWord a.write (BitVec.ofNat 12 (a.addr - Config.blockBase)) a.wdata)
  else .error (.outsideWindow a.addr)

/-- An input to its operation, or the name of what it is not. -/
def decode : Input → Except DecodeError Instr
  | .word w => decodeWord w
  | .wire b => .ok (decodeWire b)
  | .bus a => decodeBus a

/-- The input that an operation is: its step-input word with every ignored bit 0, or its byte on the bus. -/
def encode : Instr → Input
  | .reset => .word (eventWord 0x00#6 0#8)
  | .rxByte b => .word (eventWord 0x01#6 b)
  | .tick => .word (eventWord 0x02#6 0#8)
  | .lineAccept => .word (eventWord 0x03#6 0#8)
  | .lineIdle => .word (eventWord 0x04#6 0#8)
  | .rdCmd => .word (readWord 0x000#12)
  | .rdStatus => .word (readWord 0x004#12)
  | .rdIrqen => .word (readWord 0x008#12)
  | .rdErrcause => .word (readWord 0x00C#12)
  | .rdTxdata => .word (readWord 0x010#12)
  | .rdCrc => .word (readWord 0x014#12)
  | .rdCrcdata => .word (readWord 0x018#12)
  | .rdGuard => .word (readWord 0x01C#12)
  | .rdHold => .word (readWord 0x020#12)
  | .rdRxlen => .word (readWord 0x024#12)
  | .rdPaylen => .word (readWord 0x028#12)
  | .rdTxlen => .word (readWord 0x02C#12)
  | .rdState => .word (readWord 0x030#12)
  | .rdAcclen => .word (readWord 0x034#12)
  | .rdTxptr => .word (readWord 0x038#12)
  | .rdTxcnt => .word (readWord 0x03C#12)
  | .nop arg => .word (cmdWord 0x0#4 arg)
  | .txOpen arg => .word (cmdWord 0x1#4 arg)
  | .txClose arg => .word (cmdWord 0x2#4 arg)
  | .txCloseCrc arg => .word (cmdWord 0x3#4 arg)
  | .txGo arg => .word (cmdWord 0x4#4 arg)
  | .rxRelease arg => .word (cmdWord 0x5#4 arg)
  | .cmdRsvd6to7 wdata => .word (writeWord 0x000#12 wdata)
  | .cmdRsvd8to15 wdata => .word (writeWord 0x000#12 wdata)
  | .wrStatus wdata => .word (writeWord 0x004#12 wdata)
  | .wrIrqen wdata => .word (writeWord 0x008#12 wdata)
  | .wrErrcause wdata => .word (writeWord 0x00C#12 wdata)
  | .wrTxdata wdata => .word (writeWord 0x010#12 wdata)
  | .wrCrc wdata => .word (writeWord 0x014#12 wdata)
  | .wrCrcdata wdata => .word (writeWord 0x018#12 wdata)
  | .wrGuard wdata => .word (writeWord 0x01C#12 wdata)
  | .wrHold wdata => .word (writeWord 0x020#12 wdata)
  | .wrRxlen wdata => .word (writeWord 0x024#12 wdata)
  | .wrPaylen wdata => .word (writeWord 0x028#12 wdata)
  | .wrTxlen wdata => .word (writeWord 0x02C#12 wdata)
  | .wrState wdata => .word (writeWord 0x030#12 wdata)
  | .wrAcclen wdata => .word (writeWord 0x034#12 wdata)
  | .wrTxptr wdata => .word (writeWord 0x038#12 wdata)
  | .wrTxcnt wdata => .word (writeWord 0x03C#12 wdata)
  | .rdRsvd200 off => .word (readWord off)
  | .rdRsvd100 off => .word (readWord off)
  | .rdRsvd080 off => .word (readWord off)
  | .rdRsvd040 off => .word (readWord off)
  | .wrRsvd200 off wdata => .word (writeWord off wdata)
  | .wrRsvd100 off wdata => .word (writeWord off wdata)
  | .wrRsvd080 off wdata => .word (writeWord off wdata)
  | .wrRsvd040 off wdata => .word (writeWord off wdata)
  | .rdRxraw i => .word (readWord (windowOffset 0b01#2 i))
  | .wrRxraw i wdata => .word (writeWord (windowOffset 0b01#2 i) wdata)
  | .rdRxpay i => .word (readWord (windowOffset 0b10#2 i))
  | .wrRxpay i wdata => .word (writeWord (windowOffset 0b10#2 i) wdata)
  | .rdTxbuf i => .word (readWord (windowOffset 0b11#2 i))
  | .wrTxbuf i wdata => .word (writeWord (windowOffset 0b11#2 i) wdata)
  | .wireStart => .wire 0xAC#8
  | .wireEnd => .wire 0xAD#8
  | .wireEscape => .wire 0xAE#8
  | .wireData b => .wire b

/-- The offset an operation reads when it is a host read, none for every other operation (R69). -/
def readOffset (i : Instr) : Option Offset :=
  match encode i with
  | .word w => if wordKind w = 0b01#2 then some (wordOffset w) else none
  | .wire _ => none
  | .bus _ => none

/-! ## The rows of opcode_table.json -/

/-- A row of opcode_table.json: a word of `bits` bits belongs to it when its bits under `mask` are `pattern`. -/
structure Row where
  mnemonic : String
  bits     : Nat
  mask     : StepWord
  pattern  : StepWord
  deriving DecidableEq, Repr

/-- `w` belongs to the row. -/
def Row.holds (r : Row) (w : StepWord) : Bool := w &&& r.mask == r.pattern

/-- The row of opcode_table.json that each operation is. -/
def Instr.row : Instr → Row
  | .reset => ⟨"RESET", 48, 0xFF0000000000#48, 0x000000000000#48⟩
  | .rxByte _ => ⟨"RX_BYTE", 48, 0xFF0000000000#48, 0x010000000000#48⟩
  | .tick => ⟨"TICK", 48, 0xFF0000000000#48, 0x020000000000#48⟩
  | .lineAccept => ⟨"LINE_ACCEPT", 48, 0xFF0000000000#48, 0x030000000000#48⟩
  | .lineIdle => ⟨"LINE_IDLE", 48, 0xFF0000000000#48, 0x040000000000#48⟩
  | .rdCmd => ⟨"RD_CMD", 48, 0xCFFF00000000#48, 0x400000000000#48⟩
  | .rdStatus => ⟨"RD_STATUS", 48, 0xCFFF00000000#48, 0x400400000000#48⟩
  | .rdIrqen => ⟨"RD_IRQEN", 48, 0xCFFF00000000#48, 0x400800000000#48⟩
  | .rdErrcause => ⟨"RD_ERRCAUSE", 48, 0xCFFF00000000#48, 0x400C00000000#48⟩
  | .rdTxdata => ⟨"RD_TXDATA", 48, 0xCFFF00000000#48, 0x401000000000#48⟩
  | .rdCrc => ⟨"RD_CRC", 48, 0xCFFF00000000#48, 0x401400000000#48⟩
  | .rdCrcdata => ⟨"RD_CRCDATA", 48, 0xCFFF00000000#48, 0x401800000000#48⟩
  | .rdGuard => ⟨"RD_GUARD", 48, 0xCFFF00000000#48, 0x401C00000000#48⟩
  | .rdHold => ⟨"RD_HOLD", 48, 0xCFFF00000000#48, 0x402000000000#48⟩
  | .rdRxlen => ⟨"RD_RXLEN", 48, 0xCFFF00000000#48, 0x402400000000#48⟩
  | .rdPaylen => ⟨"RD_PAYLEN", 48, 0xCFFF00000000#48, 0x402800000000#48⟩
  | .rdTxlen => ⟨"RD_TXLEN", 48, 0xCFFF00000000#48, 0x402C00000000#48⟩
  | .rdState => ⟨"RD_STATE", 48, 0xCFFF00000000#48, 0x403000000000#48⟩
  | .rdAcclen => ⟨"RD_ACCLEN", 48, 0xCFFF00000000#48, 0x403400000000#48⟩
  | .rdTxptr => ⟨"RD_TXPTR", 48, 0xCFFF00000000#48, 0x403800000000#48⟩
  | .rdTxcnt => ⟨"RD_TXCNT", 48, 0xCFFF00000000#48, 0x403C00000000#48⟩
  | .nop _ => ⟨"NOP", 48, 0xCFFF0000000F#48, 0x800000000000#48⟩
  | .txOpen _ => ⟨"TX_OPEN", 48, 0xCFFF0000000F#48, 0x800000000001#48⟩
  | .txClose _ => ⟨"TX_CLOSE", 48, 0xCFFF0000000F#48, 0x800000000002#48⟩
  | .txCloseCrc _ => ⟨"TX_CLOSE_CRC", 48, 0xCFFF0000000F#48, 0x800000000003#48⟩
  | .txGo _ => ⟨"TX_GO", 48, 0xCFFF0000000F#48, 0x800000000004#48⟩
  | .rxRelease _ => ⟨"RX_RELEASE", 48, 0xCFFF0000000F#48, 0x800000000005#48⟩
  | .cmdRsvd6to7 _ => ⟨"CMD_RSVD_6_7", 48, 0xCFFF0000000E#48, 0x800000000006#48⟩
  | .cmdRsvd8to15 _ => ⟨"CMD_RSVD_8_15", 48, 0xCFFF00000008#48, 0x800000000008#48⟩
  | .wrStatus _ => ⟨"WR_STATUS", 48, 0xCFFF00000000#48, 0x800400000000#48⟩
  | .wrIrqen _ => ⟨"WR_IRQEN", 48, 0xCFFF00000000#48, 0x800800000000#48⟩
  | .wrErrcause _ => ⟨"WR_ERRCAUSE", 48, 0xCFFF00000000#48, 0x800C00000000#48⟩
  | .wrTxdata _ => ⟨"WR_TXDATA", 48, 0xCFFF00000000#48, 0x801000000000#48⟩
  | .wrCrc _ => ⟨"WR_CRC", 48, 0xCFFF00000000#48, 0x801400000000#48⟩
  | .wrCrcdata _ => ⟨"WR_CRCDATA", 48, 0xCFFF00000000#48, 0x801800000000#48⟩
  | .wrGuard _ => ⟨"WR_GUARD", 48, 0xCFFF00000000#48, 0x801C00000000#48⟩
  | .wrHold _ => ⟨"WR_HOLD", 48, 0xCFFF00000000#48, 0x802000000000#48⟩
  | .wrRxlen _ => ⟨"WR_RXLEN", 48, 0xCFFF00000000#48, 0x802400000000#48⟩
  | .wrPaylen _ => ⟨"WR_PAYLEN", 48, 0xCFFF00000000#48, 0x802800000000#48⟩
  | .wrTxlen _ => ⟨"WR_TXLEN", 48, 0xCFFF00000000#48, 0x802C00000000#48⟩
  | .wrState _ => ⟨"WR_STATE", 48, 0xCFFF00000000#48, 0x803000000000#48⟩
  | .wrAcclen _ => ⟨"WR_ACCLEN", 48, 0xCFFF00000000#48, 0x803400000000#48⟩
  | .wrTxptr _ => ⟨"WR_TXPTR", 48, 0xCFFF00000000#48, 0x803800000000#48⟩
  | .wrTxcnt _ => ⟨"WR_TXCNT", 48, 0xCFFF00000000#48, 0x803C00000000#48⟩
  | .rdRsvd200 _ => ⟨"RD_RSVD_0x200_0x3FC", 48, 0xCE0300000000#48, 0x420000000000#48⟩
  | .rdRsvd100 _ => ⟨"RD_RSVD_0x100_0x1FC", 48, 0xCF0300000000#48, 0x410000000000#48⟩
  | .rdRsvd080 _ => ⟨"RD_RSVD_0x080_0x0FC", 48, 0xCF8300000000#48, 0x408000000000#48⟩
  | .rdRsvd040 _ => ⟨"RD_RSVD_0x040_0x07C", 48, 0xCFC300000000#48, 0x404000000000#48⟩
  | .wrRsvd200 _ _ => ⟨"WR_RSVD_0x200_0x3FC", 48, 0xCE0300000000#48, 0x820000000000#48⟩
  | .wrRsvd100 _ _ => ⟨"WR_RSVD_0x100_0x1FC", 48, 0xCF0300000000#48, 0x810000000000#48⟩
  | .wrRsvd080 _ _ => ⟨"WR_RSVD_0x080_0x0FC", 48, 0xCF8300000000#48, 0x808000000000#48⟩
  | .wrRsvd040 _ _ => ⟨"WR_RSVD_0x040_0x07C", 48, 0xCFC300000000#48, 0x804000000000#48⟩
  | .rdRxraw _ => ⟨"RD_RXRAW", 48, 0xCC0300000000#48, 0x440000000000#48⟩
  | .wrRxraw _ _ => ⟨"WR_RXRAW", 48, 0xCC0300000000#48, 0x840000000000#48⟩
  | .rdRxpay _ => ⟨"RD_RXPAY", 48, 0xCC0300000000#48, 0x480000000000#48⟩
  | .wrRxpay _ _ => ⟨"WR_RXPAY", 48, 0xCC0300000000#48, 0x880000000000#48⟩
  | .rdTxbuf _ => ⟨"RD_TXBUF", 48, 0xCC0300000000#48, 0x4C0000000000#48⟩
  | .wrTxbuf _ _ => ⟨"WR_TXBUF", 48, 0xCC0300000000#48, 0x8C0000000000#48⟩
  | .wireStart => ⟨"START", 8, 0xFF#48, 0xAC#48⟩
  | .wireEnd => ⟨"END", 8, 0xFF#48, 0xAD#48⟩
  | .wireEscape => ⟨"ESCAPE", 8, 0xFF#48, 0xAE#48⟩
  | .wireData _ => ⟨"DATA", 8, 0x00#48, 0x00#48⟩

/-! ## Words numbered as opcode_table.json numbers them -/

/-- The input whose bits are `w`: a row of one byte is a byte of the bus, every other row is a step-input word. -/
def tableInput (nbits w : Nat) : Input :=
  if nbits ≤ 8 then .wire (BitVec.ofNat 8 w) else .word (BitVec.ofNat 48 w)

/-- The operation the decoder reads from the word `w` of a row of `nbits` bits. -/
def decodeTableWord (nbits w : Nat) : Option Instr :=
  match decode (tableInput nbits w) with
  | .ok i => some i
  | .error _ => none

end Sys2Proof
end

