-- ==== Sys2Proof/Machine/State.lean ====
section
/-!
DEFINITION. The state of the block: every field of 10_state.md R22, grouped by the "unit" column of that rule, the
parameters (00_scope.md R5 to R7), and the model's own fields for the block's ports. Plain data throughout.
-/

namespace Sys2Proof.Machine

/-- The accumulator's state (R23). -/
inductive RxState
  | idle
  | inFrame
  deriving DecidableEq, Repr

/-- The transmit buffer's state (R28). -/
inductive TxbState
  | empty
  | opened
  | closed
  deriving DecidableEq, Repr

/-- The phase of the turnaround sequence (R30). -/
inductive TxEngine
  | idle
  | guard
  | send
  | drain
  | hold
  deriving DecidableEq, Repr

/-- The cause of the latest rejection (60_exceptions.md R301): the values 0 to 5 that ERRCAUSE holds. -/
inductive Cause
  | none
  | illegalCmd
  | txBusy
  | txNotOpen
  | txFull
  | txNotClosed
  deriving DecidableEq, Repr

/-- Frame Accumulator (R23 to R26). -/
structure Accumulator where
  rxState    : RxState
  rxAwait    : Bool
  rxMatch    : Bool
  rxOvf      : Bool
  acc        : List Byte
  accLen     : Nat
  rxActivity : Bool
  rxToolong  : Bool
  deriving DecidableEq, Repr

/-- Held frame (R26, R27). -/
structure HeldFrame where
  frameReady : Bool
  frameTrunc : Bool
  rxraw      : List Byte
  rxlen      : Nat
  rxpay      : List Byte
  paylen     : Nat
  rxOverrun  : Bool
  deriving DecidableEq, Repr

/-- Transmit buffer (R28). -/
structure TxFrame where
  txb   : TxbState
  txbuf : List Byte
  txlen : Nat
  deriving DecidableEq, Repr

/-- Bus Turnaround Driver (R30, R32, R33). -/
structure Driver where
  txEngine : TxEngine
  txptr    : Nat
  txcnt    : BitVec 16
  guard    : BitVec 16
  hold     : BitVec 16
  txDone   : Bool
  deriving DecidableEq, Repr

/-- Host interface (R34, R35). -/
structure HostRegs where
  cmdErr   : Bool
  errcause : Cause
  irqen    : Byte
  deriving DecidableEq, Repr

/-- The model's own fields: what waits at the block's inputs, what its outputs have carried, and the counters that the
free values are applied to. No rule of the spec names them (notes/assumptions/3.md, 4.md, 6.md, 7.md). -/
structure Ports where
  /-- inputs presented to the block and not yet taken, the next one first -/
  inputs    : List Input
  /-- the values the host port has returned to reads, oldest first -/
  readLog   : List Word
  /-- the bytes driven to the line transmitter (`emit TxByte`, R11), oldest first -/
  lineLog   : List Byte
  /-- how many operations have begun -/
  opIndex   : Nat
  /-- the draw that an open window byte of this operation is taken from (R69) -/
  readIndex : Nat
  /-- the offset of the last operation when it was a host read (R69) -/
  lastRead  : Option Offset
  deriving DecidableEq, Repr

/-- The state of the block (R22), with its parameters and its ports. -/
structure State where
  cfg  : Config
  rx   : Accumulator
  held : HeldFrame
  tx   : TxFrame
  /-- the CRC8 generator's running value (R29) -/
  crc  : Byte
  drv  : Driver
  host : HostRegs
  port : Ports
  deriving DecidableEq, Repr

/-- The machine never stops with a fault: the block has no trap and no operation that ends it (60_exceptions.md R302,
R309), so there is no fault to name (notes/assumptions/13.md). -/
inductive Fault
  deriving DecidableEq, Repr

/-- Why a step is refused. -/
inductive Refusal
  /-- raised by `exec` for an instruction without a meaning; no arm of this model raises it. Safe. -/
  | notModelled (mnemonic : String)
  /-- raised by `step` when no input waits: the block steps once per input it receives (00_scope.md R12). Safe: the machine
  stops where the hardware waits (notes/assumptions/3.md). -/
  | noInput
  /-- raised by `step` for an input that names no operation (30_encoding.md R96, 20_memory.md R67; U2: "refuse"). Safe: the
  spec gives it no effect. -/
  | noOperation (why : DecodeError)
  deriving DecidableEq, Repr

/-- The state of 70_reset_and_hazards.md R340, for a machine with the parameters `cfg`. The buffers' contents are `any`
(R340, U3): `rxDepth` or `txDepth` free bytes of the draw `port.opIndex`. The ports are the model's own and stay
(notes/assumptions/6.md, 19.md). -/
def State.afterReset (cfg : Config) (port : Ports) : State where
  cfg := cfg
  rx :=
    { rxState := .idle, rxAwait := false, rxMatch := false, rxOvf := false,
      acc := Config.freeBytes .acc port.opIndex cfg.rxDepth, accLen := 0,
      rxActivity := false, rxToolong := false }
  held :=
    { frameReady := false, frameTrunc := false,
      rxraw := Config.freeBytes .rxraw port.opIndex cfg.rxDepth, rxlen := 0,
      rxpay := Config.freeBytes .rxpay port.opIndex cfg.rxDepth, paylen := 0,
      rxOverrun := false }
  tx := { txb := .empty, txbuf := Config.freeBytes .txbuf port.opIndex cfg.txDepth, txlen := 0 }
  crc := 0x00#8
  drv := { txEngine := .idle, txptr := 0, txcnt := 0#16, guard := 520#16, hold := 1000#16, txDone := false }
  host := { cmdErr := false, errcause := .none, irqen := 0x00#8 }
  port := port

/-- Nothing waits, nothing has been put out, no operation has begun. -/
def Ports.fresh : Ports :=
  { inputs := [], readLog := [], lineLog := [], opIndex := 0, readIndex := 0, lastRead := .none }

/-- The block right after RESET (R340), with the default parameters (R5, R6, R7). -/
def State.reset : State := State.afterReset Config.default Ports.fresh

end Sys2Proof.Machine
end

