-- ==== Sys2Proof/Machine/Flags.lean ====
section
/-!
DEFINITION. The status computations: the codes of the named values, the STATUS and STATE registers, the outputs TXEN, IRQ
and the transmit offer, and the write-1-to-clear of STATUS (10_state.md R31, R35, R36, R38, R49; 43_host_access.md R263;
60_exceptions.md R301, R307).
-/

namespace Sys2Proof.Machine

/-- The code of `rx_state` (R22, R49). -/
def RxState.code : RxState → BitVec 1
  | .idle => 0#1
  | .inFrame => 1#1

/-- The code of `txb` (R22, R49). -/
def TxbState.code : TxbState → BitVec 2
  | .empty => 0#2
  | .opened => 1#2
  | .closed => 2#2

/-- The code of `tx_engine` (R22, R49). -/
def TxEngine.code : TxEngine → BitVec 3
  | .idle => 0#3
  | .guard => 1#3
  | .send => 2#3
  | .drain => 3#3
  | .hold => 4#3

/-- The cause codes as ERRCAUSE holds them (R301). -/
def Cause.code : Cause → Byte
  | .none => 0#8
  | .illegalCmd => 1#8
  | .txBusy => 2#8
  | .txNotOpen => 3#8
  | .txFull => 4#8
  | .txNotClosed => 5#8

/-- TXEN in a phase (R31): asserted in SEND, DRAIN and HOLD. -/
def TxEngine.txen : TxEngine → Bool
  | .idle => false
  | .guard => false
  | .send => true
  | .drain => true
  | .hold => true

/-- The transmit-enable output (R31). -/
def State.txen (s : State) : Bool := s.drv.txEngine.txen

/-- The eight bits of STATUS, bit 7 first (R38). -/
def State.statusByte (s : State) : Byte :=
  BitVec.ofBool s.txen ++ BitVec.ofBool s.host.cmdErr ++ BitVec.ofBool s.drv.txDone ++ BitVec.ofBool s.rx.rxToolong
    ++ BitVec.ofBool s.held.rxOverrun ++ BitVec.ofBool s.rx.rxActivity ++ BitVec.ofBool s.held.frameTrunc
    ++ BitVec.ofBool s.held.frameReady

/-- The value a read of STATUS returns (R38). -/
def State.statusValue (s : State) : Word := zextByte s.statusByte

/-- The bits of STATE, bit 9 first (R49). -/
def State.stateBits (s : State) : BitVec 10 :=
  s.tx.txb.code ++ 0#1 ++ s.drv.txEngine.code ++ BitVec.ofBool s.rx.rxOvf ++ BitVec.ofBool s.rx.rxMatch
    ++ BitVec.ofBool s.rx.rxAwait ++ s.rx.rxState.code

/-- The value a read of STATE returns (R49). -/
def State.stateValue (s : State) : Word := s.stateBits.setWidth 32

/-- The interrupt output, a level (R35, R307). -/
def State.irq (s : State) : Bool := (s.statusByte &&& s.host.irqen &&& 0x7D#8) != 0#8

/-- `tx_valid` (R36). -/
def State.txValid (s : State) : Bool := s.drv.txEngine == .send

/-- `m[k] == 1` clears the bit, `m[k] == 0` leaves it (R263). -/
def w1c (m : Word) (k : Nat) (bit : Bool) : Bool := bit && !m.getLsbD k

end Sys2Proof.Machine
end

