-- ==== Sys2Proof/Machine/Ops.lean ====
section
/-!
DEFINITION. The named operations the meanings share: reading and writing the buffers, the accumulator's actions
(41_accumulator.md R182 to R185), rejecting (60_exceptions.md R302) and ending a rejection (R310), the checks of the
transmit-side writes (R303), returning a value on the host port (43_host_access.md R260), and beginning an operation.
-/

namespace Sys2Proof.Machine

/-- What an operation answers. -/
abbrev Result := Host.Outcome State Fault Refusal

/-! ## Buffers -/

/-- `buf[i]`. An index past the buffer, which no run reaches, reads `other`, a free value (notes/assumptions/11.md). -/
def byteAt (buf : List Byte) (i : Nat) (other : Byte) : Byte := (buf[i]?).getD other

/-- `buf[pos + j] <- bytes[j]` for every j, in order. The buffer keeps its length. -/
def writeAt : List Byte → Nat → List Byte → List Byte
  | buf, _, [] => buf
  | buf, pos, b :: bytes => writeAt (buf.set pos b) (pos + 1) bytes

/-- `buf[1..n-2]`, the interior of a frame of `n` bytes (R185). -/
def interiorOf (buf : List Byte) (n : Nat) : List Byte := (buf.take (n - 1)).drop 1

/-! ## Rejections: the block's one exception (R302) and its end (R310) -/

/-- `raise Reject(cause)` (R302): CMD_ERR is set, ERRCAUSE holds the latest cause, and nothing else changes. -/
def State.reject (cause : Cause) (s : State) : State :=
  { s with host := { s.host with cmdErr := true, errcause := cause } }

/-- The host's end of a rejection: CMD_ERR and ERRCAUSE are cleared (R263, R310). -/
def HostRegs.clearError (h : HostRegs) : HostRegs := { h with cmdErr := false, errcause := .none }

/-- The checks of a write that needs an open frame (R303): TX_BUSY, then TX_NOT_OPEN, else `accepted`. -/
def State.withOpenFrame (s accepted : State) : State :=
  if s.drv.txEngine ≠ .idle then s.reject .txBusy
  else if s.tx.txb ≠ .opened then s.reject .txNotOpen
  else accepted

/-! ## The accumulator's actions -/

/-- A byte has been received: RX_ACTIVITY is set (R25, R182). -/
def Accumulator.active (a : Accumulator) : Accumulator := { a with rxActivity := true }

/-- `start_frame()` (R182, R186, R187). -/
def Accumulator.startFrame (a : Accumulator) : Accumulator :=
  { a with
    rxState := .inFrame, rxAwait := true, rxMatch := false, rxOvf := false,
    acc := a.acc.set 0 startByte, accLen := 1 }

/-- `append(b)` with the capacity `depth` (R183). -/
def Accumulator.append (depth : Nat) (b : Byte) (a : Accumulator) : Accumulator :=
  if a.accLen < depth then { a with acc := a.acc.set a.accLen b, accLen := a.accLen + 1 }
  else { a with rxOvf := true }

/-- Address capture (R184): the raw byte after START is the address. -/
def Accumulator.capture (b : Byte) (a : Accumulator) : Accumulator :=
  if a.rxAwait then { a with rxAwait := false, rxMatch := addrMatch b } else a

/-- The accumulator goes back to IDLE (the last five writes of `end_frame()`, R185). -/
def Accumulator.close (a : Accumulator) : Accumulator :=
  { a with rxState := .idle, rxAwait := false, rxMatch := false, rxOvf := false, accLen := 0 }

/-- Delivery of the frame of `n` bytes in `acc` to the held-frame buffer (R185). -/
def HeldFrame.deliver (acc : List Byte) (n : Nat) (h : HeldFrame) : HeldFrame :=
  { h with
    rxraw := writeAt h.rxraw 0 (acc.take n), rxlen := n,
    rxpay := writeAt h.rxpay 0 (unstuff (interiorOf acc n)).1, paylen := (unstuff (interiorOf acc n)).1.length,
    frameTrunc := (unstuff (interiorOf acc n)).2,
    frameReady := true }

/-- What an END does with a frame that was addressed-to-us (R185): too long, overrun or delivered. -/
def State.deliverFrame (s : State) : State :=
  if s.rx.rxOvf then { s with rx := { s.rx with rxToolong := true } }
  else if s.held.frameReady then { s with held := { s.held with rxOverrun := true } }
  else { s with held := s.held.deliver s.rx.acc s.rx.accLen }

/-- `end_frame()` (R185): a frame not addressed-to-us is discarded and leaves no trace. -/
def State.endFrame (s : State) : State :=
  let t := if s.rx.rxMatch then s.deliverFrame else s
  { t with rx := t.rx.close }

/-- A byte other than START in a frame (R182): append, address capture, END, in that order. -/
def State.frameByte (b : Byte) (s : State) : State :=
  let t := { s with rx := (s.rx.append s.cfg.rxDepth b).capture b }
  if b = endByte then t.endFrame else t

/-- RX_BYTE(b) after RX_ACTIVITY has been set (R182). -/
def State.takeByte (b : Byte) (s : State) : State :=
  match s.rx.rxState with
  | .idle => if b = startByte then { s with rx := s.rx.startFrame } else s
  | .inFrame => if b = startByte then { s with rx := s.rx.startFrame } else s.frameByte b

/-- RX_BYTE(b) (R182). -/
def State.rxByte (b : Byte) (s : State) : State := ({ s with rx := s.rx.active } : State).takeByte b

/-! ## The transmit buffer -/

/-- `txbuf[txlen + j] <- bytes[j]` for every j, `txlen` past them, and the buffer in the state `txb` (R141, R142, R143). -/
def TxFrame.put (txb : TxbState) (bytes : List Byte) (f : TxFrame) : TxFrame :=
  { txb := txb, txbuf := writeAt f.txbuf f.txlen bytes, txlen := f.txlen + bytes.length }

/-- `tx_data` (R36): the byte offered to the line transmitter, and a free value when none is offered (U4;
notes/assumptions/8.md). -/
def State.txData (s : State) : Byte :=
  if s.txValid then byteAt s.tx.txbuf s.drv.txptr (Config.freeByte .txData s.port.opIndex 0)
  else Config.freeByte .txData s.port.opIndex 0

/-! ## The ports -/

/-- A host read returns `v` on the host port and changes no other thing (R69, R260; notes/assumptions/4.md). -/
def State.hostRead (v : Word) (s : State) : Result :=
  .next { s with port := { s.port with readLog := s.port.readLog ++ [v] } }

/-- `emit TxByte(b)` (R11): byte b is driven to the line transmitter (notes/assumptions/4.md). -/
def Ports.emit (b : Byte) (p : Ports) : Ports := { p with lineLog := p.lineLog ++ [b] }

/-- The byte that a window read returns in bits 7:0: `buf[i]` below the valid length `n`, a free value at or above it
(R53, R262, U1; notes/assumptions/7.md). -/
def State.windowByte (s : State) (buf : List Byte) (n : Nat) (i : Byte) : Byte :=
  if i.toNat < n then byteAt buf i.toNat (Config.freeByte .window s.port.readIndex 0)
  else Config.freeByte .window s.port.readIndex 0

/-- The operation `i` begins: its input leaves the queue, the operation counter advances, and an open window byte is drawn
anew unless `i` repeats the read just taken (R69: a read "may be repeated with the same result while no other operation
intervenes"). -/
def State.beginOp (i : Instr) (rest : List Input) (s : State) : State :=
  { s with
    port :=
      { s.port with
        inputs := rest,
        opIndex := s.port.opIndex + 1,
        readIndex :=
          if (readOffset i).isSome ∧ readOffset i = s.port.lastRead then s.port.readIndex else s.port.opIndex + 1,
        lastRead := readOffset i } }

/-- The agents present further inputs, behind those that wait. -/
def State.feed (xs : List Input) (s : State) : State :=
  { s with port := { s.port with inputs := s.port.inputs ++ xs } }

end Sys2Proof.Machine
end

