-- ==== Sys2Proof/Machine/HostRead.lean ====
section
/-!
DEFINITION. Every host read (43_host_access.md R260, R261, R262; 20_memory.md R63). A read returns a value on the host port
and changes no state of the block (R69).
-/

namespace Sys2Proof.Machine

/-- RD CMD returns 0x00000000, CMD being write-only (R37, R64). -/
def execRdCmd (s : State) : Result := s.hostRead 0#32

/-- RD STATUS returns the eight status bits (R38). -/
def execRdStatus (s : State) : Result := s.hostRead s.statusValue

/-- RD IRQEN returns `irqen` (R39). -/
def execRdIrqen (s : State) : Result := s.hostRead (zextByte s.host.irqen)

/-- RD ERRCAUSE returns `errcause` (R40). -/
def execRdErrcause (s : State) : Result := s.hostRead (zextByte s.host.errcause.code)

/-- RD TXDATA returns 0x00000000, TXDATA being write-only (R41, R64). -/
def execRdTxdata (s : State) : Result := s.hostRead 0#32

/-- RD CRC returns `crc` (R42, 40_codec.md R148). -/
def execRdCrc (s : State) : Result := s.hostRead (zextByte s.crc)

/-- RD CRCDATA returns 0x00000000, CRCDATA being write-only (R43, R64). -/
def execRdCrcdata (s : State) : Result := s.hostRead 0#32

/-- RD GUARD returns `guard` (R44). -/
def execRdGuard (s : State) : Result := s.hostRead (zextHalf s.drv.guard)

/-- RD HOLD returns `hold` (R45). -/
def execRdHold (s : State) : Result := s.hostRead (zextHalf s.drv.hold)

/-- RD RXLEN returns `rxlen` (R46). -/
def execRdRxlen (s : State) : Result := s.hostRead (zextCount s.held.rxlen)

/-- RD PAYLEN returns `paylen` (R47). -/
def execRdPaylen (s : State) : Result := s.hostRead (zextCount s.held.paylen)

/-- RD TXLEN returns `txlen` (R48). -/
def execRdTxlen (s : State) : Result := s.hostRead (zextCount s.tx.txlen)

/-- RD STATE returns the sequencing fields (R49). -/
def execRdState (s : State) : Result := s.hostRead s.stateValue

/-- RD ACCLEN returns `acc_len` (R50). -/
def execRdAcclen (s : State) : Result := s.hostRead (zextCount s.rx.accLen)

/-- RD TXPTR returns `txptr` (R51). -/
def execRdTxptr (s : State) : Result := s.hostRead (zextCount s.drv.txptr)

/-- RD TXCNT returns `txcnt` (R52). -/
def execRdTxcnt (s : State) : Result := s.hostRead (zextHalf s.drv.txcnt)

/-- A read of the reserved offsets 0x200 to 0x3FC returns 0x00000000 (R63). -/
def execRdRsvd200 (_off : Offset) (s : State) : Result := s.hostRead 0#32

/-- A read of the reserved offsets 0x100 to 0x1FC returns 0x00000000 (R63). -/
def execRdRsvd100 (_off : Offset) (s : State) : Result := s.hostRead 0#32

/-- A read of the reserved offsets 0x080 to 0x0FC returns 0x00000000 (R63). -/
def execRdRsvd080 (_off : Offset) (s : State) : Result := s.hostRead 0#32

/-- A read of the reserved offsets 0x040 to 0x07C returns 0x00000000 (R63). -/
def execRdRsvd040 (_off : Offset) (s : State) : Result := s.hostRead 0#32

/-- RD RXRAW[i] (R53, R262). -/
def execRdRxraw (i : Byte) (s : State) : Result := s.hostRead (zextByte (s.windowByte s.held.rxraw s.held.rxlen i))

/-- RD RXPAY[i] (R53, R262). -/
def execRdRxpay (i : Byte) (s : State) : Result := s.hostRead (zextByte (s.windowByte s.held.rxpay s.held.paylen i))

/-- RD TXBUF[i] (R53, R262). -/
def execRdTxbuf (i : Byte) (s : State) : Result := s.hostRead (zextByte (s.windowByte s.tx.txbuf s.tx.txlen i))

end Sys2Proof.Machine
end

