-- ==== Sys2Proof/Machine/HostWrite.lean ====
section
/-!
DEFINITION. The host writes that belong to the host interface itself (43_host_access.md R263 to R267; 20_memory.md R63, R64).
-/

namespace Sys2Proof.Machine

/-- WR STATUS, write 1 to clear (R263): bits 2 to 6 of the mask clear their status bit, the other bits are ignored. -/
def execWrStatus (wdata : Word) (s : State) : Result :=
  .next
    { s with
      rx := { s.rx with
        rxActivity := w1c wdata 2 s.rx.rxActivity,
        rxToolong := w1c wdata 4 s.rx.rxToolong },
      held := { s.held with rxOverrun := w1c wdata 3 s.held.rxOverrun },
      drv := { s.drv with txDone := w1c wdata 5 s.drv.txDone },
      host := if wdata.getLsbD 6 then s.host.clearError else s.host }

/-- WR IRQEN (R264). -/
def execWrIrqen (wdata : Word) (s : State) : Result :=
  .next { s with host := { s.host with irqen := wdataEnable wdata } }

/-- CMD NOP (R265). -/
def execNop (s : State) : Result := .next s

/-- CMD with the reserved codes 0x6 and 0x7 (R266). -/
def execCmdRsvd6to7 (_wdata : Word) (s : State) : Result := .next (s.reject .illegalCmd)

/-- CMD with the reserved codes 0x8 to 0xF (R266). -/
def execCmdRsvd8to15 (_wdata : Word) (s : State) : Result := .next (s.reject .illegalCmd)

/-- A write of the read-only register ERRCAUSE changes nothing (R64, R267). -/
def execWrErrcause (_wdata : Word) (s : State) : Result := .next s

/-- A write of the read-only register RXLEN changes nothing (R64, R267). -/
def execWrRxlen (_wdata : Word) (s : State) : Result := .next s

/-- A write of the read-only register PAYLEN changes nothing (R64, R267). -/
def execWrPaylen (_wdata : Word) (s : State) : Result := .next s

/-- A write of the read-only register TXLEN changes nothing (R64, R267). -/
def execWrTxlen (_wdata : Word) (s : State) : Result := .next s

/-- A write of the read-only register STATE changes nothing (R64, R267). -/
def execWrState (_wdata : Word) (s : State) : Result := .next s

/-- A write of the read-only register ACCLEN changes nothing (R64, R267). -/
def execWrAcclen (_wdata : Word) (s : State) : Result := .next s

/-- A write of the read-only register TXPTR changes nothing (R64, R267). -/
def execWrTxptr (_wdata : Word) (s : State) : Result := .next s

/-- A write of the read-only register TXCNT changes nothing (R64, R267). -/
def execWrTxcnt (_wdata : Word) (s : State) : Result := .next s

/-- A write of the reserved offsets 0x200 to 0x3FC is ignored (R63, R267). -/
def execWrRsvd200 (_off : Offset) (_wdata : Word) (s : State) : Result := .next s

/-- A write of the reserved offsets 0x100 to 0x1FC is ignored (R63, R267). -/
def execWrRsvd100 (_off : Offset) (_wdata : Word) (s : State) : Result := .next s

/-- A write of the reserved offsets 0x080 to 0x0FC is ignored (R63, R267). -/
def execWrRsvd080 (_off : Offset) (_wdata : Word) (s : State) : Result := .next s

/-- A write of the reserved offsets 0x040 to 0x07C is ignored (R63, R267). -/
def execWrRsvd040 (_off : Offset) (_wdata : Word) (s : State) : Result := .next s

/-- A write of the read-only window RXRAW is ignored (R53, R267). -/
def execWrRxraw (_i : Byte) (_wdata : Word) (s : State) : Result := .next s

/-- A write of the read-only window RXPAY is ignored (R53, R267). -/
def execWrRxpay (_i : Byte) (_wdata : Word) (s : State) : Result := .next s

/-- A write of the read-only window TXBUF is ignored (R53, R267). -/
def execWrTxbuf (_i : Byte) (_wdata : Word) (s : State) : Result := .next s

end Sys2Proof.Machine
end

