-- ==== Sys2Proof/Machine/Receive.lean ====
section
/-!
DEFINITION. The Frame Accumulator's operations: RX_BYTE (41_accumulator.md R182), RX_RELEASE (R190), and the four byte
classes of the bus (30_encoding.md R90), each the arrival of its byte (notes/assumptions/5.md).
-/

namespace Sys2Proof.Machine

/-- RX_BYTE (R182). -/
def execRxByte (b : Byte) (s : State) : Result := .next (s.rxByte b)

/-- START arrives on the bus: "opens a frame" (R90, R186, R187). -/
def execWireStart (s : State) : Result := .next (s.rxByte startByte)

/-- END arrives on the bus: "closes a frame" (R90, R185). -/
def execWireEnd (s : State) : Result := .next (s.rxByte endByte)

/-- ESCAPE arrives on the bus (R90): accumulated as it is, and undone by `decode` at delivery (R93, R132, R185). -/
def execWireEscape (s : State) : Result := .next (s.rxByte escapeByte)

/-- A data byte arrives on the bus: "itself" (R90). -/
def execWireData (b : Byte) (s : State) : Result := .next (s.rxByte b)

/-- RX_RELEASE (R190). -/
def execRxRelease (s : State) : Result :=
  .next { s with held := { s.held with frameReady := false, frameTrunc := false, rxlen := 0, paylen := 0 } }

end Sys2Proof.Machine
end

