-- ==== Sys2Proof/Machine/Reset.lean ====
section
/-!
DEFINITION. RESET (70_reset_and_hazards.md R340).
-/

namespace Sys2Proof.Machine

/-- RESET (R340), in any state: every field at its reset value, the buffers' contents open; the parameters are the
machine's, and the ports are the model's own (notes/assumptions/19.md). -/
def execReset (s : State) : Result := .next (State.afterReset s.cfg s.port)

end Sys2Proof.Machine
end

