-- ==== Sys2Proof/Machine/Transmit.lean ====
section
/-!
DEFINITION. The Frame Codec's host operations: building a frame (40_codec.md R140 to R143) and the CRC8 generator (R146,
R147).
-/

namespace Sys2Proof.Machine

/-- TX_OPEN (R140). -/
def execTxOpen (s : State) : Result :=
  .next
    (if s.drv.txEngine ≠ .idle then s.reject .txBusy
    else
      { s with
        tx := { txb := .opened, txbuf := s.tx.txbuf.set 0 startByte, txlen := 1 },
        drv := { s.drv with txptr := 0 },
        crc := 0x00#8 })

/-- WR TXDATA (R141): the byte is stuffed into the buffer, and the CRC advances over the unstuffed byte. -/
def execWrTxdata (wdata : Word) (s : State) : Result :=
  .next
    (s.withOpenFrame
      (if s.tx.txlen + (stuffByte (wdataByte wdata)).length > s.cfg.txDepth - 1 then s.reject .txFull
      else
        { s with
          tx := s.tx.put .opened (stuffByte (wdataByte wdata)),
          crc := crc8Step s.crc (wdataByte wdata) }))

/-- TX_CLOSE (R142). -/
def execTxClose (s : State) : Result :=
  .next (s.withOpenFrame { s with tx := s.tx.put .closed [endByte] })

/-- TX_CLOSE_CRC (R143): the checksum is stuffed behind the payload, and `crc` itself does not change. -/
def execTxCloseCrc (s : State) : Result :=
  .next
    (s.withOpenFrame
      (if s.tx.txlen + (stuffByte s.crc).length + 1 > s.cfg.txDepth then s.reject .txFull
      else { s with tx := s.tx.put .closed (stuffByte s.crc ++ [endByte]) }))

/-- WR CRC (R146). -/
def execWrCrc (wdata : Word) (s : State) : Result := .next { s with crc := wdataByte wdata }

/-- WR CRCDATA (R147). -/
def execWrCrcdata (wdata : Word) (s : State) : Result := .next { s with crc := crc8Step s.crc (wdataByte wdata) }

end Sys2Proof.Machine
end

