-- ==== Sys2Proof/Machine/Turnaround.lean ====
section
/-!
DEFINITION. The Bus Turnaround Driver's operations: TX_GO, TICK, LINE_ACCEPT, LINE_IDLE and the delay registers
(42_tx_driver.md R221 to R226, R230, R231).
-/

namespace Sys2Proof.Machine

/-- TX_GO (R221). -/
def execTxGo (s : State) : Result :=
  .next
    (if s.drv.txEngine ≠ .idle then s.reject .txBusy
    else if s.tx.txb ≠ .closed then s.reject .txNotClosed
    else { s with drv := { s.drv with txEngine := .guard, txcnt := s.drv.guard, txptr := 0 } })

/-- One TICK of the driver (R222, R223, R224). -/
def Driver.tick (d : Driver) : Driver :=
  match d.txEngine with
  | .guard => if d.txcnt = 0#16 then { d with txEngine := .send } else { d with txcnt := d.txcnt - 1#16 }
  | .hold =>
    if d.txcnt = 0#16 then { d with txEngine := .idle, txDone := true } else { d with txcnt := d.txcnt - 1#16 }
  | .idle => d
  | .send => d
  | .drain => d

/-- TICK (R222, R223, R224). -/
def execTick (s : State) : Result := .next { s with drv := s.drv.tick }

/-- LINE_ACCEPT (R225): in SEND the line transmitter takes the byte offered; in any other phase nothing is offered and
nothing changes. -/
def execLineAccept (s : State) : Result :=
  .next
    (if s.drv.txEngine = .send then
      { s with
        port := s.port.emit s.txData,
        drv :=
          { s.drv with
            txptr := s.drv.txptr + 1,
            txEngine := if s.drv.txptr + 1 = s.tx.txlen then .drain else .send } }
    else s)

/-- LINE_IDLE (R226). -/
def execLineIdle (s : State) : Result :=
  .next
    (if s.drv.txEngine = .drain then { s with drv := { s.drv with txEngine := .hold, txcnt := s.drv.hold } } else s)

/-- WR GUARD (R230). -/
def execWrGuard (wdata : Word) (s : State) : Result := .next { s with drv := { s.drv with guard := wdataDelay wdata } }

/-- WR HOLD (R231). -/
def execWrHold (wdata : Word) (s : State) : Result := .next { s with drv := { s.drv with hold := wdataDelay wdata } }

end Sys2Proof.Machine
end

