-- ==== Sys2Proof/Machine/Dispatch.lean ====
section
/-!
DEFINITION. One operation's meaning, an arm for every row of opcode_table.json.
-/

namespace Sys2Proof.Machine

def exec (i : Instr) (s : State) : Host.Outcome State Fault Refusal :=
  match i with
  | .reset => Sys2Proof.Machine.execReset s
  | .rxByte b => Sys2Proof.Machine.execRxByte b s
  | .tick => Sys2Proof.Machine.execTick s
  | .lineAccept => Sys2Proof.Machine.execLineAccept s
  | .lineIdle => Sys2Proof.Machine.execLineIdle s
  | .rdCmd => Sys2Proof.Machine.execRdCmd s
  | .rdStatus => Sys2Proof.Machine.execRdStatus s
  | .rdIrqen => Sys2Proof.Machine.execRdIrqen s
  | .rdErrcause => Sys2Proof.Machine.execRdErrcause s
  | .rdTxdata => Sys2Proof.Machine.execRdTxdata s
  | .rdCrc => Sys2Proof.Machine.execRdCrc s
  | .rdCrcdata => Sys2Proof.Machine.execRdCrcdata s
  | .rdGuard => Sys2Proof.Machine.execRdGuard s
  | .rdHold => Sys2Proof.Machine.execRdHold s
  | .rdRxlen => Sys2Proof.Machine.execRdRxlen s
  | .rdPaylen => Sys2Proof.Machine.execRdPaylen s
  | .rdTxlen => Sys2Proof.Machine.execRdTxlen s
  | .rdState => Sys2Proof.Machine.execRdState s
  | .rdAcclen => Sys2Proof.Machine.execRdAcclen s
  | .rdTxptr => Sys2Proof.Machine.execRdTxptr s
  | .rdTxcnt => Sys2Proof.Machine.execRdTxcnt s
  | .nop _ => Sys2Proof.Machine.execNop s
  | .txOpen _ => Sys2Proof.Machine.execTxOpen s
  | .txClose _ => Sys2Proof.Machine.execTxClose s
  | .txCloseCrc _ => Sys2Proof.Machine.execTxCloseCrc s
  | .txGo _ => Sys2Proof.Machine.execTxGo s
  | .rxRelease _ => Sys2Proof.Machine.execRxRelease s
  | .cmdRsvd6to7 wdata => Sys2Proof.Machine.execCmdRsvd6to7 wdata s
  | .cmdRsvd8to15 wdata => Sys2Proof.Machine.execCmdRsvd8to15 wdata s
  | .wrStatus wdata => Sys2Proof.Machine.execWrStatus wdata s
  | .wrIrqen wdata => Sys2Proof.Machine.execWrIrqen wdata s
  | .wrErrcause wdata => Sys2Proof.Machine.execWrErrcause wdata s
  | .wrTxdata wdata => Sys2Proof.Machine.execWrTxdata wdata s
  | .wrCrc wdata => Sys2Proof.Machine.execWrCrc wdata s
  | .wrCrcdata wdata => Sys2Proof.Machine.execWrCrcdata wdata s
  | .wrGuard wdata => Sys2Proof.Machine.execWrGuard wdata s
  | .wrHold wdata => Sys2Proof.Machine.execWrHold wdata s
  | .wrRxlen wdata => Sys2Proof.Machine.execWrRxlen wdata s
  | .wrPaylen wdata => Sys2Proof.Machine.execWrPaylen wdata s
  | .wrTxlen wdata => Sys2Proof.Machine.execWrTxlen wdata s
  | .wrState wdata => Sys2Proof.Machine.execWrState wdata s
  | .wrAcclen wdata => Sys2Proof.Machine.execWrAcclen wdata s
  | .wrTxptr wdata => Sys2Proof.Machine.execWrTxptr wdata s
  | .wrTxcnt wdata => Sys2Proof.Machine.execWrTxcnt wdata s
  | .rdRsvd200 off => Sys2Proof.Machine.execRdRsvd200 off s
  | .rdRsvd100 off => Sys2Proof.Machine.execRdRsvd100 off s
  | .rdRsvd080 off => Sys2Proof.Machine.execRdRsvd080 off s
  | .rdRsvd040 off => Sys2Proof.Machine.execRdRsvd040 off s
  | .wrRsvd200 off wdata => Sys2Proof.Machine.execWrRsvd200 off wdata s
  | .wrRsvd100 off wdata => Sys2Proof.Machine.execWrRsvd100 off wdata s
  | .wrRsvd080 off wdata => Sys2Proof.Machine.execWrRsvd080 off wdata s
  | .wrRsvd040 off wdata => Sys2Proof.Machine.execWrRsvd040 off wdata s
  | .rdRxraw idx => Sys2Proof.Machine.execRdRxraw idx s
  | .wrRxraw idx wdata => Sys2Proof.Machine.execWrRxraw idx wdata s
  | .rdRxpay idx => Sys2Proof.Machine.execRdRxpay idx s
  | .wrRxpay idx wdata => Sys2Proof.Machine.execWrRxpay idx wdata s
  | .rdTxbuf idx => Sys2Proof.Machine.execRdTxbuf idx s
  | .wrTxbuf idx wdata => Sys2Proof.Machine.execWrTxbuf idx wdata s
  | .wireStart => Sys2Proof.Machine.execWireStart s
  | .wireEnd => Sys2Proof.Machine.execWireEnd s
  | .wireEscape => Sys2Proof.Machine.execWireEscape s
  | .wireData b => Sys2Proof.Machine.execWireData b s

end Sys2Proof.Machine
end

