-- ==== Sys2Proof/Machine/Step.lean ====
section
/-!
DEFINITION. The step: the block takes the input that waits first, decodes it and runs its operation (00_scope.md R12,
20_memory.md R68). It fetches no instructions (R75); its inputs come from the agents around it (notes/assumptions/3.md).
-/

namespace Sys2Proof.Machine

/-- One step (R12, R96): no input waits, or the input names no operation, or its operation runs. -/
def step (s : State) : Host.Outcome State Fault Refusal :=
  match s.port.inputs with
  | [] => .refused .noInput
  | x :: rest =>
    match decode x with
    | .error e => .refused (.noOperation e)
    | .ok i => exec i (s.beginOp i rest)

/-- `n` steps. -/
def steps : Nat → State → Host.Outcome State Fault Refusal
  | 0, s => .next s
  | n + 1, s =>
    match step s with
    | .next t => steps n t
    | .fault f => .fault f
    | .refused r => .refused r

/-- Inputs presented to a block that has taken all the earlier ones, and a step for each. -/
def runInputs (xs : List Input) (s : State) : Host.Outcome State Fault Refusal := steps xs.length (s.feed xs)

/-- The word `w` of a row of `nbits` bits waits as the next input (notes/assumptions/3.md). -/
def State.withFetchWord (s : State) (nbits w : Nat) : State :=
  { s with port := { s.port with inputs := tableInput nbits w :: s.port.inputs } }

end Sys2Proof.Machine
end

