-- ==== Sys2Proof/Machine/Cycle.lean ====
section
/-!
DEFINITION. The inputs of one clock cycle, in the fixed order of 20_memory.md R72, and the pseudo-operations of
30_encoding.md R102. Both are lists of inputs that the agents present.
-/

namespace Sys2Proof.Machine

/-- An access of the host port: write flag, word offset, write data (R61). -/
structure HostAccess where
  write : Bool
  word  : BitVec 10
  wdata : Word
  deriving DecidableEq, Repr

/-- The step-input word of a host port access (R96): the byte offset is 4 times the word offset (R61). -/
def HostAccess.input (a : HostAccess) : Input := .word (accessWord a.write (a.word ++ 0#2) a.wdata)

/-- The inputs that arrive in one clock cycle: at most one of each kind (R72; 92_eei_decisions.md D29). -/
structure Cycle where
  reset      : Bool
  host       : Option HostAccess
  rxByte     : Option Byte
  lineAccept : Bool
  lineIdle   : Bool
  tick       : Bool
  deriving DecidableEq, Repr

/-- The consecutive steps of a cycle (R72): RESET alone if it is asserted, else the host access, RX_BYTE, LINE_ACCEPT,
LINE_IDLE, TICK. -/
def Cycle.inputs (c : Cycle) : List Input :=
  if c.reset then [encode .reset]
  else
    (c.host.map HostAccess.input).toList ++ (c.rxByte.map fun b => encode (.rxByte b)).toList
      ++ (if c.lineAccept then [encode .lineAccept] else [])
      ++ (if c.lineIdle then [encode .lineIdle] else [])
      ++ (if c.tick then [encode .tick] else [])

/-- A zero-extended byte as the write data of a host write. -/
def byteWdata (b : Byte) : Word := b.setWidth 32

/-! ## Pseudo-operations (R102) -/

/-- `TICKS n`. -/
def pseudoTicks (n : Nat) : List Input := List.replicate n (encode .tick)

/-- `ACCEPTS n`. -/
def pseudoAccepts (n : Nat) : List Input := List.replicate n (encode .lineAccept)

/-- `RXSEQ b0, …, bk`. -/
def pseudoRxseq (bs : List Byte) : List Input := bs.map fun b => encode (.rxByte b)

/-- `RXFRAME p0, …, pk`. -/
def pseudoRxframe (payload : List Byte) : List Input := pseudoRxseq (encodeFrame payload)

/-- `WR TXDATA, p` for each p, in order. -/
def pseudoTxdata (payload : List Byte) : List Input := payload.map fun p => encode (.wrTxdata (byteWdata p))

/-- `BUILD p0, …, pk`. -/
def pseudoBuild (payload : List Byte) : List Input :=
  encode (.txOpen 0#28) :: (pseudoTxdata payload ++ [encode (.txCloseCrc 0#28)])

/-- `SEND p0, …, pk`. -/
def pseudoSend (payload : List Byte) : List Input := pseudoBuild payload ++ [encode (.txGo 0#28)]

/-- `CLR m`. -/
def pseudoClr (m : Word) : List Input := [encode (.wrStatus m)]

/-- `RELEASE`. -/
def pseudoRelease : List Input := [encode (.rxRelease 0#28)]

end Sys2Proof.Machine
end

