-- ==== Sys2Proof/Safety.lean ====
section
/-!
DEFINITION. The terms claims use: the invariants of 10_state.md R54 with the field facts of R22 to R35 that carry them, what
a host read returns, well-stuffed interiors, a queue of inputs that all name operations, and quiescence (70_reset_and_hazards.md R359).
-/

namespace Sys2Proof.Machine

/-- The byte is one of the two delimiters. -/
abbrev isDelimiter (b : Byte) : Prop := b = startByte ∨ b = endByte

/-- What every state reachable from RESET satisfies (R54), together with the facts of R22, R23, R24, R27, R28, R35 that make
every operation keep it. -/
structure Inv (s : State) : Prop where
  /-- R5, R6, R7 -/
  params : s.cfg.Legal
  /-- R22: `acc` is RX_DEPTH bytes -/
  accSize : s.rx.acc.length = s.cfg.rxDepth
  /-- R22: `rxraw` is RX_DEPTH bytes -/
  rxrawSize : s.held.rxraw.length = s.cfg.rxDepth
  /-- R22: `rxpay` is RX_DEPTH bytes -/
  rxpaySize : s.held.rxpay.length = s.cfg.rxDepth
  /-- R22: `txbuf` is TX_DEPTH bytes -/
  txbufSize : s.tx.txbuf.length = s.cfg.txDepth
  /-- R54 item 1 -/
  rxIdle : s.rx.rxState = .idle →
    s.rx.accLen = 0 ∧ s.rx.rxAwait = false ∧ s.rx.rxMatch = false ∧ s.rx.rxOvf = false
  /-- R54 item 2 -/
  rxInFrame : s.rx.rxState = .inFrame →
    1 ≤ s.rx.accLen ∧ s.rx.accLen ≤ s.cfg.rxDepth ∧ s.rx.acc[0]? = some startByte ∧
    (s.rx.rxAwait = true → s.rx.accLen = 1 ∧ s.rx.rxMatch = false)
  /-- R23: a matched frame holds an address of the block as its raw byte after START -/
  rxAddress : s.rx.rxMatch = true →
    2 ≤ s.rx.accLen ∧ (s.rx.acc[1]? = some 0x14#8 ∨ s.rx.acc[1]? = some 0x20#8)
  /-- R24, R182: no delimiter follows the START of a frame in progress -/
  rxInterior : ∀ b ∈ (s.rx.acc.take s.rx.accLen).drop 1, ¬ isDelimiter b
  /-- R54 item 3, no frame held -/
  heldNone : s.held.frameReady = false → s.held.rxlen = 0 ∧ s.held.paylen = 0 ∧ s.held.frameTrunc = false
  /-- R54 item 3, a frame held -/
  heldFrame : s.held.frameReady = true →
    3 ≤ s.held.rxlen ∧ s.held.rxlen ≤ s.cfg.rxDepth ∧ s.held.rxraw[0]? = some startByte ∧
    s.held.rxraw[s.held.rxlen - 1]? = some endByte ∧
    (s.held.rxraw[1]? = some 0x14#8 ∨ s.held.rxraw[1]? = some 0x20#8) ∧ s.held.paylen ≤ s.held.rxlen - 2
  /-- R27: the payload and its truncation flag are the `decode` of the held frame's interior -/
  heldPayload : s.held.frameReady = true →
    unstuff (interiorOf s.held.rxraw s.held.rxlen) = (s.held.rxpay.take s.held.paylen, s.held.frameTrunc)
  /-- R28, EMPTY -/
  txEmpty : s.tx.txb = .empty → s.tx.txlen = 0
  /-- R28, OPEN: a START and the stuffed bytes of some payload, one byte kept free -/
  txOpened : s.tx.txb = .opened →
    1 ≤ s.tx.txlen ∧ s.tx.txlen ≤ s.cfg.txDepth - 1 ∧ ∃ p, s.tx.txbuf.take s.tx.txlen = startByte :: stuff p
  /-- R28, CLOSED: the whole frame of some payload -/
  txClosed : s.tx.txb = .closed →
    2 ≤ s.tx.txlen ∧ s.tx.txlen ≤ s.cfg.txDepth ∧ ∃ p, s.tx.txbuf.take s.tx.txlen = encodeFrame p
  /-- R54 item 4 -/
  engineClosed : s.drv.txEngine ≠ .idle → s.tx.txb = .closed
  /-- R54 item 5 -/
  txptrBound : s.drv.txptr ≤ s.tx.txlen
  /-- R221: the guard wait begins at the first byte -/
  guardPtr : s.drv.txEngine = .guard → s.drv.txptr = 0
  /-- R54 item 5, SEND -/
  sendPtr : s.drv.txEngine = .send → s.drv.txptr < s.tx.txlen
  /-- R54 item 5, DRAIN and HOLD -/
  drainPtr : s.drv.txEngine = .drain ∨ s.drv.txEngine = .hold → s.drv.txptr = s.tx.txlen
  /-- R54 item 6 -/
  txcntZero : s.drv.txEngine = .idle ∨ s.drv.txEngine = .send ∨ s.drv.txEngine = .drain → s.drv.txcnt = 0#16
  /-- R54 item 7 -/
  errorRecorded : s.host.errcause ≠ .none ↔ s.host.cmdErr = true
  /-- R54 item 8 -/
  txenPhase : s.txen = true ↔
    s.drv.txEngine = .send ∨ s.drv.txEngine = .drain ∨ s.drv.txEngine = .hold
  /-- R35: only bits 0, 2, 3, 4, 5, 6 of `irqen` -/
  irqenMask : s.host.irqen &&& 0x7D#8 = s.host.irqen

/-- The host read `i` returns `v` on the host port and changes nothing else (43_host_access.md R260, 20_memory.md R69). -/
def Returns (i : Instr) (s : State) (v : Word) : Prop :=
  exec i s = .next { s with port := { s.port with readLog := s.port.readLog ++ [v] } }

/-- Read left to right as `decode` reads it, every ESCAPE that starts a code is followed by 0x2C, 0x2D or 0x2E, and none is
left without a byte after it (40_codec.md R135). -/
def escapesStuffed : List Byte → Bool
  | [] => true
  | [b] => b != escapeByte
  | b :: c :: rest =>
    if b = escapeByte then (c == 0x2C#8 || c == 0x2D#8 || c == 0x2E#8) && escapesStuffed rest
    else escapesStuffed (c :: rest)

/-- Every input that waits names an operation (30_encoding.md R96): a run of such inputs is never refused for one. -/
def InputsNameOperations (s : State) : Prop := ∀ x ∈ s.port.inputs, ∃ i, decode x = .ok i

/-- Quiescence (R359): the driver is not sending, and no port event is pending. -/
def Quiescent (s : State) : Prop :=
  s.drv.txEngine = .idle ∧ ∀ x ∈ s.port.inputs, ∀ i, decode x = .ok i → i.isPortEvent = false

end Sys2Proof.Machine
end

