-- ==== Sys2Proof/Certificates/Slice0/Obligations.lean ====
section
/-!
DEFINITION. The statements for the provers, from the numbered rules of spec/. OBLIGATIONS.json says which rule each one
formalises.
-/

open Sys2Proof Sys2Proof.Machine

/-! ## Reset -/

/-- R340: RESET, in any state, gives every field its reset value, drops TXEN and clears STATUS; the buffers keep their sizes
(their contents are open); in a cycle with RESET nothing else happens. That RESET leaves the parameters and the model's own
ports is the model's choice (notes/assumptions/19.md). -/
def Obligations.ResetGivesEveryFieldItsResetValue : Prop :=
  (∀ s : State, ∃ t, exec .reset s = .next t ∧
    t.rx.rxState = .idle ∧ t.rx.rxAwait = false ∧ t.rx.rxMatch = false ∧ t.rx.rxOvf = false ∧ t.rx.accLen = 0 ∧
    t.rx.acc.length = s.cfg.rxDepth ∧ t.rx.rxActivity = false ∧ t.rx.rxToolong = false ∧
    t.held.rxOverrun = false ∧ t.held.frameReady = false ∧ t.held.frameTrunc = false ∧
    t.held.rxlen = 0 ∧ t.held.paylen = 0 ∧ t.held.rxraw.length = s.cfg.rxDepth ∧ t.held.rxpay.length = s.cfg.rxDepth ∧
    t.tx.txb = .empty ∧ t.tx.txlen = 0 ∧ t.tx.txbuf.length = s.cfg.txDepth ∧ t.crc.toNat = 0 ∧
    t.drv.txEngine = .idle ∧ t.drv.txptr = 0 ∧ t.drv.txcnt.toNat = 0 ∧
    t.drv.guard.toNat = 520 ∧ t.drv.hold.toNat = 1000 ∧ t.drv.txDone = false ∧
    t.host.cmdErr = false ∧ t.host.errcause = .none ∧ t.host.irqen.toNat = 0 ∧
    t.txen = false ∧ t.statusValue = 0#32 ∧ t.cfg = s.cfg ∧ t.port = s.port) ∧
  (∀ c : Cycle, c.reset = true → c.inputs = [encode .reset])

/-- R341: what every register reads after RESET, and the outputs TXEN, IRQ and tx_valid. -/
def Obligations.RegistersReadTheirResetValues : Prop :=
  ∀ s : State, ∃ t, exec .reset s = .next t ∧
    Returns .rdCmd t 0x00000000#32 ∧ Returns .rdTxdata t 0x00000000#32 ∧ Returns .rdCrcdata t 0x00000000#32 ∧
    Returns .rdStatus t 0x00000000#32 ∧ Returns .rdIrqen t 0x00000000#32 ∧ Returns .rdErrcause t 0x00000000#32 ∧
    Returns .rdCrc t 0x00000000#32 ∧ Returns .rdGuard t 0x00000208#32 ∧ Returns .rdHold t 0x000003E8#32 ∧
    Returns .rdRxlen t 0x00000000#32 ∧ Returns .rdPaylen t 0x00000000#32 ∧ Returns .rdTxlen t 0x00000000#32 ∧
    Returns .rdState t 0x00000000#32 ∧ Returns .rdAcclen t 0x00000000#32 ∧ Returns .rdTxptr t 0x00000000#32 ∧
    Returns .rdTxcnt t 0x00000000#32 ∧
    (∀ off, Returns (.rdRsvd200 off) t 0x00000000#32 ∧ Returns (.rdRsvd100 off) t 0x00000000#32 ∧
      Returns (.rdRsvd080 off) t 0x00000000#32 ∧ Returns (.rdRsvd040 off) t 0x00000000#32) ∧
    (∀ i, ∃ b : Byte, Returns (.rdRxraw i) t (b.setWidth 32)) ∧
    (∀ i, ∃ b : Byte, Returns (.rdRxpay i) t (b.setWidth 32)) ∧
    (∀ i, ∃ b : Byte, Returns (.rdTxbuf i) t (b.setWidth 32)) ∧
    t.txen = false ∧ t.irq = false ∧ t.txValid = false

/-- R54: the invariants hold right after RESET, for every legal choice of the parameters, State.reset among them. -/
def Obligations.InvariantsHoldAfterReset : Prop :=
  Inv State.reset ∧ ∀ (cfg : Config) (port : Ports), cfg.Legal → Inv (State.afterReset cfg port)

/-- R54: every step keeps the invariants. -/
def Obligations.EveryStepKeepsTheInvariants : Prop :=
  ∀ s t : State, Inv s → step s = .next t → Inv t

/-- R54: every state that any inputs at all reach from RESET satisfies the invariants. -/
def Obligations.ReachableStatesSatisfyTheInvariants : Prop :=
  ∀ (cfg : Config) (port : Ports) (n : Nat) (t : State),
    cfg.Legal → steps n (State.afterReset cfg port) = .next t → Inv t

/-! ## The Frame Accumulator -/

/-- R186, R187: a START, in a frame or outside one, opens a fresh frame, whatever was accumulated, and of the status bits sets
only RX_ACTIVITY; any other byte outside a frame is noise: it sets RX_ACTIVITY and nothing else. -/
def Obligations.StartOpensAFreshFrameAndNoiseIsDiscarded : Prop :=
  (∀ s : State, exec (.rxByte 0xAC#8) s = .next
    { s with rx :=
      { rxState := .inFrame, rxAwait := true, rxMatch := false, rxOvf := false,
        acc := s.rx.acc.set 0 0xAC#8, accLen := 1, rxActivity := true, rxToolong := s.rx.rxToolong } }) ∧
  (∀ (s : State) (b : Byte), s.rx.rxState = .idle → b ≠ 0xAC#8 →
    exec (.rxByte b) s = .next { s with rx := { s.rx with rxActivity := true } })

/-- R183, R184: in a frame every byte other than a delimiter is appended while there is room and marks the overflow when there
is none, and the first one after START is taken raw as the address. -/
def Obligations.FrameByteIsAppendedAndAddressCaptured : Prop :=
  ∀ (s : State) (b : Byte), s.rx.rxState = .inFrame → b ≠ 0xAC#8 → b ≠ 0xAD#8 →
    exec (.rxByte b) s = .next
      { s with rx :=
        { rxState := .inFrame
          rxAwait := false
          rxMatch := if s.rx.rxAwait then decide (b = 0x14#8 ∨ b = 0x20#8) else s.rx.rxMatch
          rxOvf := if s.rx.accLen < s.cfg.rxDepth then s.rx.rxOvf else true
          acc := if s.rx.accLen < s.cfg.rxDepth then s.rx.acc.set s.rx.accLen b else s.rx.acc
          accLen := if s.rx.accLen < s.cfg.rxDepth then s.rx.accLen + 1 else s.rx.accLen
          rxActivity := true
          rxToolong := s.rx.rxToolong } }

/-- R185, the END of a frame. A frame not addressed-to-us leaves no status, an addressed one that overflowed sets RX_TOOLONG, an
addressed one that finds a frame held sets RX_OVERRUN, and none of these is delivered (an END in the address position is taken
as an address that does not match, R193). An addressed frame that fits, with no frame held, is delivered: RXRAW holds the
accumulated bytes and the END, RXPAY the payload `decode` gives for the interior, FRAME_TRUNC its truncation, and the rest of
both buffers stays. The accumulator goes to IDLE in every case. -/
def Obligations.EndByteClosesTheFrame : Prop :=
  (∀ s : State, s.rx.rxState = .inFrame →
    let fits := decide (s.rx.accLen < s.cfg.rxDepth)
    let addressed := s.rx.rxMatch && !s.rx.rxAwait
    let overflowed := s.rx.rxOvf || !fits
    let closed : Accumulator :=
      { rxState := .idle, rxAwait := false, rxMatch := false, rxOvf := false,
        acc := if s.rx.accLen < s.cfg.rxDepth then s.rx.acc.set s.rx.accLen 0xAD#8 else s.rx.acc, accLen := 0,
        rxActivity := true, rxToolong := s.rx.rxToolong }
    (addressed = false → exec (.rxByte 0xAD#8) s = .next { s with rx := closed }) ∧
    (addressed = true → overflowed = true →
      exec (.rxByte 0xAD#8) s = .next { s with rx := { closed with rxToolong := true } }) ∧
    (addressed = true → overflowed = false → s.held.frameReady = true →
      exec (.rxByte 0xAD#8) s = .next { s with rx := closed, held := { s.held with rxOverrun := true } })) ∧
  (∀ s : State, Inv s → s.rx.rxState = .inFrame → s.rx.rxMatch = true → s.rx.rxOvf = false →
    s.rx.accLen < s.cfg.rxDepth → s.held.frameReady = false →
    ∃ h : HeldFrame, exec (.rxByte 0xAD#8) s = .next
      { s with
        rx :=
          { rxState := .idle, rxAwait := false, rxMatch := false, rxOvf := false,
            acc := s.rx.acc.set s.rx.accLen 0xAD#8, accLen := 0,
            rxActivity := true, rxToolong := s.rx.rxToolong },
        held := h } ∧
      h.frameReady = true ∧ h.rxOverrun = s.held.rxOverrun ∧
      h.rxlen = s.rx.accLen + 1 ∧
      h.rxraw.take h.rxlen = s.rx.acc.take s.rx.accLen ++ [0xAD#8] ∧
      h.rxraw.drop h.rxlen = s.held.rxraw.drop h.rxlen ∧
      (h.rxpay.take h.paylen, h.frameTrunc) = unstuff ((s.rx.acc.take s.rx.accLen).drop 1) ∧
      h.paylen = (unstuff ((s.rx.acc.take s.rx.accLen).drop 1)).1.length ∧
      h.rxpay.drop h.paylen = s.held.rxpay.drop h.paylen)

/-- R188: nothing but a START or an END ends a frame in progress. An operation that receives no byte leaves the accumulator as
it was, but for the two status bits that WR STATUS clears; a byte that is no delimiter leaves the frame in progress and every
byte accumulated so far. That the bytes of the bus are received bytes is the model's choice (notes/assumptions/5.md). -/
def Obligations.OnlyDelimitersEndAFrame : Prop :=
  ∀ (i : Instr) (s t : State), i ≠ .reset → exec i s = .next t →
    (i.received = none →
      t.rx = { s.rx with rxActivity := t.rx.rxActivity, rxToolong := t.rx.rxToolong } ∧
      ((∀ m, i ≠ .wrStatus m) → t.rx = s.rx)) ∧
    (s.rx.rxState = .inFrame → i.received ≠ some 0xAC#8 → i.received ≠ some 0xAD#8 →
      t.rx.rxState = .inFrame ∧ s.rx.accLen ≤ t.rx.accLen ∧ ∀ k, k < s.rx.accLen → t.rx.acc[k]? = s.rx.acc[k]?)

/-- R90, the four classes of a byte on the bus, in this model the arrival of that byte (the model's choice,
notes/assumptions/5.md): START opens a frame, END and ESCAPE and a data byte act as RX_BYTE of themselves, and the byte classes
are exhaustive and disjoint. -/
def Obligations.BusBytesActAsReceivedBytes : Prop :=
  (∀ s : State, exec .wireStart s = .next
    { s with rx :=
      { rxState := .inFrame, rxAwait := true, rxMatch := false, rxOvf := false,
        acc := s.rx.acc.set 0 0xAC#8, accLen := 1, rxActivity := true, rxToolong := s.rx.rxToolong } }) ∧
  (∀ s : State, ∃ t, exec .wireEnd s = .next t ∧ exec (.rxByte 0xAD#8) s = .next t ∧ t.rx.rxState = .idle) ∧
  (∀ s : State, ∃ t, exec .wireEscape s = .next t ∧ exec (.rxByte 0xAE#8) s = .next t ∧
    t.rx.rxState = s.rx.rxState) ∧
  (∀ (s : State) (b : Byte), b ≠ 0xAC#8 → b ≠ 0xAD#8 → b ≠ 0xAE#8 →
    ∃ t, exec (.wireData b) s = .next t ∧ exec (.rxByte b) s = .next t ∧ t.rx.rxState = s.rx.rxState) ∧
  (∀ b : Byte, decode (.wire b) = .ok
    (if b = 0xAC#8 then .wireStart else if b = 0xAD#8 then .wireEnd else if b = 0xAE#8 then .wireEscape else .wireData b))

/-- R190: RX_RELEASE frees the held frame, in every state, and touches nothing else. -/
def Obligations.RxReleaseFreesTheHeldFrame : Prop :=
  ∀ (s : State) (arg : BitVec 28), exec (.rxRelease arg) s = .next
    { s with held :=
      { frameReady := false, frameTrunc := false, rxraw := s.held.rxraw, rxlen := 0, rxpay := s.held.rxpay, paylen := 0,
        rxOverrun := s.held.rxOverrun } }

/-- R189: what a received byte does neither depends on the transmit side, the CRC generator or the host registers nor changes
them; and a frame whose payload does not begin with an address of the block (a reply of the block's own, which begins with
0x00) is discarded without a trace. -/
def Obligations.ReceptionIgnoresTheTransmitSide : Prop :=
  (∀ (s : State) (b : Byte) (tx : TxFrame) (crc : Byte) (drv : Driver) (host : HostRegs),
    ∃ (rx : Accumulator) (held : HeldFrame), exec (.rxByte b) s = .next { s with rx := rx, held := held } ∧
      exec (.rxByte b) { s with tx := tx, crc := crc, drv := drv, host := host }
        = .next { s with tx := tx, crc := crc, drv := drv, host := host, rx := rx, held := held }) ∧
  (∀ (s : State) (p : List Byte), s.port.inputs = [] → p[0]? ≠ some 0x14#8 → p[0]? ≠ some 0x20#8 →
    ∃ t, runInputs (pseudoRxframe p) s = .next t ∧
      t.held = s.held ∧ t.rx.rxState = .idle ∧ t.rx.rxToolong = s.rx.rxToolong ∧
      t.tx = s.tx ∧ t.crc = s.crc ∧ t.drv = s.drv ∧ t.host = s.host)

/-- R76: while a frame is held, no operation but RX_RELEASE and RESET changes RXLEN, PAYLEN, FRAME_TRUNC, RXRAW or RXPAY, and
the frame stays held. -/
def Obligations.HeldFrameIsAStableSnapshot : Prop :=
  ∀ (i : Instr) (s t : State), s.held.frameReady = true → i ≠ .reset → (∀ arg, i ≠ .rxRelease arg) →
    exec i s = .next t →
      t.held.frameReady = true ∧ t.held.rxlen = s.held.rxlen ∧ t.held.paylen = s.held.paylen ∧
      t.held.frameTrunc = s.held.frameTrunc ∧ t.held.rxraw = s.held.rxraw ∧ t.held.rxpay = s.held.rxpay

/-- R192: a well-formed frame to one of the block's addresses that fits is delivered, byte for byte and decoded, when no frame
is held. -/
def Obligations.WellFormedFrameIsDelivered : Prop :=
  ∀ (s : State) (p : List Byte), Inv s → s.port.inputs = [] → s.held.frameReady = false →
    (p[0]? = some 0x14#8 ∨ p[0]? = some 0x20#8) → (encodeFrame p).length ≤ s.cfg.rxDepth →
    ∃ t, runInputs (pseudoRxframe p) s = .next t ∧
      t.held.frameReady = true ∧ t.held.rxraw.take t.held.rxlen = encodeFrame p ∧
      t.held.rxlen = (encodeFrame p).length ∧
      t.held.rxpay.take t.held.paylen = p ∧ t.held.paylen = p.length ∧ t.held.frameTrunc = false ∧
      t.rx.rxState = .idle ∧ t.tx = s.tx ∧ t.crc = s.crc ∧ t.drv = s.drv ∧ t.host = s.host

/-- R191: a frame that starts and never ends does not block a later one: the later frame is delivered as if the abandoned
bytes had not come. -/
def Obligations.AbandonedFrameDoesNotBlockTheNext : Prop :=
  ∀ (s : State) (x p : List Byte), Inv s → s.port.inputs = [] → s.held.frameReady = false →
    (∀ b ∈ x, ¬ isDelimiter b) →
    (p[0]? = some 0x14#8 ∨ p[0]? = some 0x20#8) → (encodeFrame p).length ≤ s.cfg.rxDepth →
    ∃ t u, runInputs (pseudoRxseq (0xAC#8 :: x) ++ pseudoRxframe p) s = .next t ∧
      runInputs (pseudoRxframe p) s = .next u ∧
      t.held = u.held ∧ t.held.frameReady = true ∧ t.held.rxraw.take t.held.rxlen = encodeFrame p ∧
      t.held.rxpay.take t.held.paylen = p ∧ t.held.frameTrunc = false ∧
      t.rx.rxState = u.rx.rxState ∧ t.rx.accLen = u.rx.accLen ∧ t.rx.rxToolong = u.rx.rxToolong ∧
      t.rx.rxActivity = u.rx.rxActivity

/-! ## The Frame Codec's functions -/

/-- R130, R133: exactly START, END and ESCAPE are stuffed, as ESCAPE and the byte XOR 0x80; a frame is START, the stuffed
payload, END, of between |P| + 2 and 2|P| + 2 bytes. -/
def Obligations.StuffingAndFrameLength : Prop :=
  (∀ b : Byte, stuffByte b
    = if b.toNat = 0xAC ∨ b.toNat = 0xAD ∨ b.toNat = 0xAE then [0xAE#8, b ^^^ 0x80#8] else [b]) ∧
  (∀ p : List Byte,
    encodeFrame p = [0xAC#8] ++ p.flatMap stuffByte ++ [0xAD#8] ∧
    p.length + 2 ≤ (encodeFrame p).length ∧ (encodeFrame p).length ≤ 2 * p.length + 2)

/-- R134: the decoding of a frame's interior is the payload. -/
def Obligations.DecodingAFrameGivesThePayload : Prop :=
  ∀ p interior : List Byte, encodeFrame p = [0xAC#8] ++ interior ++ [0xAD#8] → unstuff interior = (p, false)

/-- R135: the interior of a frame holds no START and no END, and every ESCAPE in it starts a pair the stuffer makes. -/
def Obligations.FrameInteriorHoldsNoDelimiter : Prop :=
  ∀ p interior : List Byte, encodeFrame p = [0xAC#8] ++ interior ++ [0xAD#8] →
    (∀ b ∈ interior, b ≠ 0xAC#8 ∧ b ≠ 0xAD#8) ∧ escapesStuffed interior = true

/-- R136: a unit that unstuffs bytes as they arrive computes `decode`, its pending ESCAPE being the truncation. -/
def Obligations.StreamingUnstufferComputesDecode : Prop :=
  ∀ interior : List Byte,
    unstuff interior
      = ((interior.foldl Unstuffer.push Unstuffer.start).out, (interior.foldl Unstuffer.push Unstuffer.start).escaped)

/-- R137: the CRC of no bytes is 0, leading zero bytes do not change a CRC, and a payload followed by its CRC has CRC 0. -/
def Obligations.CrcResidueIsZero : Prop :=
  crc8 [] = 0x00#8 ∧ crc8Step 0x00#8 0x00#8 = 0x00#8 ∧
  (∀ bs : List Byte, crc8 (0x00#8 :: bs) = crc8 bs) ∧
  (∀ p : List Byte, crc8 (p ++ [crc8 p]) = 0x00#8)

/-- R131: one step of the CRC is eight shifts of the XOR, each followed by an XOR with 0x8C when the bit shifted out was 1; the
CRC of a sequence starts at 0 and takes a step for each byte in order. -/
def Obligations.CrcIsEightConditionalShiftsForEachByte : Prop :=
  (∀ c b : Byte,
    crc8Step c b =
      (List.range 8).foldl (fun v _ => if v.toNat % 2 = 1 then BitVec.ofNat 8 (v.toNat / 2) ^^^ 0x8C#8
        else BitVec.ofNat 8 (v.toNat / 2)) (c ^^^ b)) ∧
  crc8 [] = 0x00#8 ∧ ∀ (bs : List Byte) (b : Byte), crc8 (bs ++ [b]) = crc8Step (crc8 bs) b

/-! ## Building a frame -/

/-- R140: TX_OPEN starts a fresh frame and resets the CRC when no sequence runs, and is rejected with TX_BUSY when one does. -/
def Obligations.TxOpenStartsAFreshFrame : Prop :=
  ∀ (s : State) (arg : BitVec 28),
    (s.drv.txEngine = .idle → exec (.txOpen arg) s = .next
      { s with
        tx := { txb := .opened, txbuf := s.tx.txbuf.set 0 0xAC#8, txlen := 1 },
        drv := { s.drv with txptr := 0 },
        crc := 0x00#8 }) ∧
    (s.drv.txEngine ≠ .idle → exec (.txOpen arg) s = .next
      { s with host := { cmdErr := true, errcause := .txBusy, irqen := s.host.irqen } })

/-- R141, R303: WR TXDATA stuffs its byte into an open frame that keeps room for END and advances the CRC over the unstuffed
byte; otherwise it is rejected with the first of TX_BUSY, TX_NOT_OPEN, TX_FULL that applies, and changes nothing else. -/
def Obligations.TxdataStuffsAByteOrIsRejected : Prop :=
  ∀ (s : State) (wdata : Word),
    let b : Byte := wdata.extractLsb' 0 8
    let stuffed := b = 0xAC#8 ∨ b = 0xAD#8 ∨ b = 0xAE#8
    let size := if stuffed then 2 else 1
    (s.drv.txEngine = .idle → s.tx.txb = .opened → s.tx.txlen + size ≤ s.cfg.txDepth - 1 →
      exec (.wrTxdata wdata) s = .next
        { s with
          tx :=
            { txb := .opened
              txbuf := if stuffed then (s.tx.txbuf.set s.tx.txlen 0xAE#8).set (s.tx.txlen + 1) (b ^^^ 0x80#8)
                else s.tx.txbuf.set s.tx.txlen b
              txlen := s.tx.txlen + size },
          crc := crc8Step s.crc b }) ∧
    (s.drv.txEngine ≠ .idle → exec (.wrTxdata wdata) s = .next
      { s with host := { cmdErr := true, errcause := .txBusy, irqen := s.host.irqen } }) ∧
    (s.drv.txEngine = .idle → s.tx.txb ≠ .opened → exec (.wrTxdata wdata) s = .next
      { s with host := { cmdErr := true, errcause := .txNotOpen, irqen := s.host.irqen } }) ∧
    (s.drv.txEngine = .idle → s.tx.txb = .opened → ¬ s.tx.txlen + size ≤ s.cfg.txDepth - 1 →
      exec (.wrTxdata wdata) s = .next
        { s with host := { cmdErr := true, errcause := .txFull, irqen := s.host.irqen } })

/-- R142: TX_CLOSE appends END and closes an open frame, never for want of room; otherwise it is rejected with TX_BUSY, then
TX_NOT_OPEN. -/
def Obligations.TxCloseAppendsEndOrIsRejected : Prop :=
  ∀ (s : State) (arg : BitVec 28),
    (s.drv.txEngine = .idle → s.tx.txb = .opened → exec (.txClose arg) s = .next
      { s with tx := { txb := .closed, txbuf := s.tx.txbuf.set s.tx.txlen 0xAD#8, txlen := s.tx.txlen + 1 } }) ∧
    (s.drv.txEngine ≠ .idle → exec (.txClose arg) s = .next
      { s with host := { cmdErr := true, errcause := .txBusy, irqen := s.host.irqen } }) ∧
    (s.drv.txEngine = .idle → s.tx.txb ≠ .opened → exec (.txClose arg) s = .next
      { s with host := { cmdErr := true, errcause := .txNotOpen, irqen := s.host.irqen } })

/-- R143: TX_CLOSE_CRC appends the stuffed checksum and END and closes an open frame with room for them, and leaves the CRC;
otherwise it is rejected with the first of TX_BUSY, TX_NOT_OPEN, TX_FULL that applies. -/
def Obligations.TxCloseCrcAppendsTheChecksumOrIsRejected : Prop :=
  ∀ (s : State) (arg : BitVec 28),
    let stuffed := s.crc = 0xAC#8 ∨ s.crc = 0xAD#8 ∨ s.crc = 0xAE#8
    let size := if stuffed then 3 else 2
    (s.drv.txEngine = .idle → s.tx.txb = .opened → s.tx.txlen + size ≤ s.cfg.txDepth →
      exec (.txCloseCrc arg) s = .next
        { s with
          tx :=
            { txb := .closed
              txbuf := if stuffed then
                  ((s.tx.txbuf.set s.tx.txlen 0xAE#8).set (s.tx.txlen + 1) (s.crc ^^^ 0x80#8)).set (s.tx.txlen + 2) 0xAD#8
                else (s.tx.txbuf.set s.tx.txlen s.crc).set (s.tx.txlen + 1) 0xAD#8
              txlen := s.tx.txlen + size } }) ∧
    (s.drv.txEngine ≠ .idle → exec (.txCloseCrc arg) s = .next
      { s with host := { cmdErr := true, errcause := .txBusy, irqen := s.host.irqen } }) ∧
    (s.drv.txEngine = .idle → s.tx.txb ≠ .opened → exec (.txCloseCrc arg) s = .next
      { s with host := { cmdErr := true, errcause := .txNotOpen, irqen := s.host.irqen } }) ∧
    (s.drv.txEngine = .idle → s.tx.txb = .opened → ¬ s.tx.txlen + size ≤ s.cfg.txDepth →
      exec (.txCloseCrc arg) s = .next
        { s with host := { cmdErr := true, errcause := .txFull, irqen := s.host.irqen } })

/-- R146, R147: WR CRC sets the CRC, WR CRCDATA advances it by its byte, in every state; WDATA[31:8] is ignored and nothing
else changes. WR CRC of 0 and a WR CRCDATA for each byte of a sequence leave the CRC of the sequence. -/
def Obligations.CrcWritesSetOrAdvanceTheCrc : Prop :=
  (∀ (s : State) (wdata : Word),
    exec (.wrCrc wdata) s = .next { s with crc := BitVec.ofNat 8 (wdata.toNat % 256) } ∧
    exec (.wrCrcdata wdata) s = .next { s with crc := crc8Step s.crc (BitVec.ofNat 8 (wdata.toNat % 256)) }) ∧
  (∀ (s : State) (bs : List Byte), s.port.inputs = [] →
    ∃ t, runInputs (encode (.wrCrc 0#32) :: bs.map fun b => encode (.wrCrcdata (byteWdata b))) s = .next t ∧
      t.crc = crc8 bs ∧
      t.rx = s.rx ∧ t.held = s.held ∧ t.tx = s.tx ∧ t.drv = s.drv ∧ t.host = s.host)

/-- R144: TX_OPEN, a WR TXDATA for each payload byte and TX_CLOSE_CRC leave the frame of the payload and its checksum in the
transmit buffer; with TX_CLOSE, the frame of the payload. Nothing is rejected when the frame fits. -/
def Obligations.BuildLeavesTheEncodedFrame : Prop :=
  ∀ (s : State) (p : List Byte), Inv s → s.port.inputs = [] → s.drv.txEngine = .idle →
    ((encodeFrame (p ++ [crc8 p])).length ≤ s.cfg.txDepth →
      ∃ t, runInputs (pseudoBuild p) s = .next t ∧
        t.tx.txb = .closed ∧ t.tx.txbuf.take t.tx.txlen = encodeFrame (p ++ [crc8 p]) ∧
        t.tx.txlen = (encodeFrame (p ++ [crc8 p])).length ∧ t.crc = crc8 p ∧
        t.host = s.host ∧ t.rx = s.rx ∧ t.held = s.held ∧ t.drv = { s.drv with txptr := 0 }) ∧
    ((encodeFrame p).length ≤ s.cfg.txDepth →
      ∃ t, runInputs (encode (.txOpen 0#28) :: (pseudoTxdata p ++ [encode (.txClose 0#28)])) s = .next t ∧
        t.tx.txb = .closed ∧ t.tx.txbuf.take t.tx.txlen = encodeFrame p ∧
        t.tx.txlen = (encodeFrame p).length ∧
        t.host = s.host ∧ t.rx = s.rx ∧ t.held = s.held ∧ t.drv = { s.drv with txptr := 0 })

/-- R145: how long a payload's frame with its checksum is: at most 2k + 4 bytes, and k + 2, k + 3 or k + 4 when no payload byte
is stuffed. -/
def Obligations.PayloadCapacity : Prop :=
  ∀ p : List Byte,
    (encodeFrame (p ++ [crc8 p])).length ≤ 2 * p.length + 4 ∧
    ((∀ b ∈ p, b ≠ 0xAC#8 ∧ b ≠ 0xAD#8 ∧ b ≠ 0xAE#8) →
      (encodeFrame p).length = p.length + 2 ∧
      (encodeFrame (p ++ [crc8 p])).length
        = p.length + (if crc8 p = 0xAC#8 ∨ crc8 p = 0xAD#8 ∨ crc8 p = 0xAE#8 then 4 else 3))

/-! ## The Bus Turnaround Driver -/

/-- R221: TX_GO starts the guard wait for a closed frame; otherwise it is rejected with TX_BUSY, then TX_NOT_CLOSED. -/
def Obligations.TxGoStartsTheGuardOrIsRejected : Prop :=
  ∀ (s : State) (arg : BitVec 28),
    (s.drv.txEngine = .idle → s.tx.txb = .closed → exec (.txGo arg) s = .next
      { s with drv :=
        { txEngine := .guard, txptr := 0, txcnt := s.drv.guard, guard := s.drv.guard, hold := s.drv.hold,
          txDone := s.drv.txDone } }) ∧
    (s.drv.txEngine ≠ .idle → exec (.txGo arg) s = .next
      { s with host := { cmdErr := true, errcause := .txBusy, irqen := s.host.irqen } }) ∧
    (s.drv.txEngine = .idle → s.tx.txb ≠ .closed → exec (.txGo arg) s = .next
      { s with host := { cmdErr := true, errcause := .txNotClosed, irqen := s.host.irqen } })

/-- R222, R223, R224: TICK in every phase: GUARD and HOLD count down and end at 0, the other phases do not move. -/
def Obligations.TickCountsTheWaits : Prop :=
  ∀ s : State,
    (s.drv.txEngine = .guard → s.drv.txcnt.toNat = 0 →
      exec .tick s = .next { s with drv := { s.drv with txEngine := .send } } ∧
      ∀ t, exec .tick s = .next t → t.txen = true) ∧
    (s.drv.txEngine = .hold → s.drv.txcnt.toNat = 0 →
      exec .tick s = .next { s with drv := { s.drv with txEngine := .idle, txDone := true } } ∧
      ∀ t, exec .tick s = .next t → t.txen = false) ∧
    (s.drv.txEngine = .guard ∨ s.drv.txEngine = .hold → s.drv.txcnt.toNat ≠ 0 →
      exec .tick s = .next { s with drv := { s.drv with txcnt := BitVec.ofNat 16 (s.drv.txcnt.toNat - 1) } }) ∧
    (s.drv.txEngine = .idle ∨ s.drv.txEngine = .send ∨ s.drv.txEngine = .drain → exec .tick s = .next s)

/-- R225, R226: LINE_ACCEPT in SEND hands over `txbuf[txptr]` and moves on, to DRAIN after the last byte; LINE_IDLE in DRAIN
begins the hold wait; in any other phase neither changes anything. -/
def Obligations.LineEventsMoveTheDriver : Prop :=
  ∀ s : State,
    (s.drv.txEngine = .send → ∃ b : Byte, exec .lineAccept s = .next
      { s with
        port := { s.port with lineLog := s.port.lineLog ++ [b] },
        drv :=
          { s.drv with
            txptr := s.drv.txptr + 1, txEngine := if s.drv.txptr + 1 = s.tx.txlen then .drain else .send } } ∧
      ∀ c, s.tx.txbuf[s.drv.txptr]? = some c → b = c) ∧
    (s.drv.txEngine ≠ .send → exec .lineAccept s = .next s) ∧
    (s.drv.txEngine = .drain →
      exec .lineIdle s = .next { s with drv := { s.drv with txEngine := .hold, txcnt := s.drv.hold } }) ∧
    (s.drv.txEngine ≠ .drain → exec .lineIdle s = .next s)

/-- R230, R231: WR GUARD and WR HOLD set their 16-bit register from WDATA[15:0], in every phase, and change nothing else (a
running count among it). -/
def Obligations.DelayWritesSetOnlyTheirRegister : Prop :=
  ∀ (s : State) (wdata : Word),
    exec (.wrGuard wdata) s = .next { s with drv := { s.drv with guard := BitVec.ofNat 16 (wdata.toNat % 65536) } } ∧
    exec (.wrHold wdata) s = .next { s with drv := { s.drv with hold := BitVec.ofNat 16 (wdata.toNat % 65536) } }

/-- R352, its first sentence: the guard register is read by TX_GO alone and the hold register by LINE_IDLE alone: every other
operation does the same whatever they hold, apart from RESET and the reads and writes of the registers themselves. -/
def Obligations.DelaysAreReadOnlyWhenAWaitBegins : Prop :=
  (∀ (i : Instr) (s t : State) (g : BitVec 16),
    (∀ arg, i ≠ .txGo arg) → i ≠ .rdGuard → i ≠ .reset → (∀ wdata, i ≠ .wrGuard wdata) → exec i s = .next t →
    exec i { s with drv := { s.drv with guard := g } } = .next { t with drv := { t.drv with guard := g } }) ∧
  (∀ (i : Instr) (s t : State) (h : BitVec 16),
    i ≠ .lineIdle → i ≠ .rdHold → i ≠ .reset → (∀ wdata, i ≠ .wrHold wdata) → exec i s = .next t →
    exec i { s with drv := { s.drv with hold := h } } = .next { t with drv := { t.drv with hold := h } })

/-- R222, R224, R227 in ticks: a wait of n lasts through n TICKs and ends on the next one, with TXEN 0 all through the guard
and 1 all through the hold. -/
def Obligations.WaitEndsOnTheTickAfterItsCount : Prop :=
  ∀ (s : State), s.port.inputs = [] →
    (s.drv.txEngine = .guard →
      (∀ k, k ≤ s.drv.txcnt.toNat → ∃ t, runInputs (pseudoTicks k) s = .next t ∧
        t.drv.txEngine = .guard ∧ t.drv.txcnt.toNat = s.drv.txcnt.toNat - k ∧ t.txen = false) ∧
      ∃ t, runInputs (pseudoTicks (s.drv.txcnt.toNat + 1)) s = .next t ∧ t.drv.txEngine = .send ∧ t.txen = true) ∧
    (s.drv.txEngine = .hold →
      (∀ k, k ≤ s.drv.txcnt.toNat → ∃ t, runInputs (pseudoTicks k) s = .next t ∧
        t.drv.txEngine = .hold ∧ t.drv.txcnt.toNat = s.drv.txcnt.toNat - k ∧ t.txen = true) ∧
      ∃ t, runInputs (pseudoTicks (s.drv.txcnt.toNat + 1)) s = .next t ∧ t.drv.txEngine = .idle ∧ t.txen = false ∧
        t.drv.txDone = true)

/-- R234: TX_GO, guard + 1 TICKs, n LINE_ACCEPTs, LINE_IDLE and hold + 1 TICKs send a closed frame of n bytes, whole and in
order, and end with TX_DONE; the frame is still there to be sent again (R229). -/
def Obligations.WholeSequenceSendsTheFrame : Prop :=
  ∀ s : State, Inv s → s.port.inputs = [] → s.drv.txEngine = .idle → s.tx.txb = .closed →
    ∃ t, runInputs ([encode (.txGo 0#28)] ++ pseudoTicks (s.drv.guard.toNat + 1) ++ pseudoAccepts s.tx.txlen
        ++ [encode .lineIdle] ++ pseudoTicks (s.drv.hold.toNat + 1)) s = .next t ∧
      t.port.lineLog = s.port.lineLog ++ s.tx.txbuf.take s.tx.txlen ∧
      t.drv = { s.drv with txDone := true, txptr := s.tx.txlen } ∧
      t.tx = s.tx ∧ t.rx = s.rx ∧ t.held = s.held ∧ t.crc = s.crc ∧ t.host = s.host

/-- R149: while a sequence runs, no operation but RESET changes the transmit buffer. -/
def Obligations.TransmitBufferIsLockedDuringASequence : Prop :=
  ∀ (i : Instr) (s t : State), s.drv.txEngine ≠ .idle → i ≠ .reset → exec i s = .next t → t.tx = s.tx

/-- R232: a sequence has no abort: only RESET, or the TICK that ends the hold wait, returns the driver to IDLE; while it runs,
TX_OPEN, WR TXDATA, TX_CLOSE, TX_CLOSE_CRC and TX_GO are rejected with TX_BUSY; and no operation of the driver reads the
receive side. -/
def Obligations.OnlyTheHoldOrResetEndsASequence : Prop :=
  (∀ (i : Instr) (s t : State), s.drv.txEngine ≠ .idle → exec i s = .next t → t.drv.txEngine = .idle →
    i = .reset ∨ (i = .tick ∧ s.drv.txEngine = .hold ∧ s.drv.txcnt = 0#16)) ∧
  (∀ (i : Instr) (s : State), s.drv.txEngine ≠ .idle →
    ((∃ arg, i = .txOpen arg) ∨ (∃ wdata, i = .wrTxdata wdata) ∨ (∃ arg, i = .txClose arg) ∨ (∃ arg, i = .txCloseCrc arg) ∨
      (∃ arg, i = .txGo arg)) →
    exec i s = .next { s with host := { cmdErr := true, errcause := .txBusy, irqen := s.host.irqen } }) ∧
  (∀ (i : Instr) (s t : State) (rx : Accumulator) (held : HeldFrame),
    ((∃ arg, i = .txGo arg) ∨ i = .tick ∨ i = .lineAccept ∨ i = .lineIdle) → exec i s = .next t →
    exec i { s with rx := rx, held := held } = .next { t with rx := rx, held := held })

/-! ## Host access -/

/-- R261: the value each register read returns (the length registers in a state that satisfies the invariants). -/
def Obligations.RegisterReadsReturnTheirFields : Prop :=
  ∀ s : State, Inv s →
    Returns .rdCmd s 0#32 ∧
    Returns .rdStatus s (BitVec.ofNat 32
      (s.held.frameReady.toNat + 2 * s.held.frameTrunc.toNat + 4 * s.rx.rxActivity.toNat + 8 * s.held.rxOverrun.toNat
        + 16 * s.rx.rxToolong.toNat + 32 * s.drv.txDone.toNat + 64 * s.host.cmdErr.toNat
        + 128 * (if s.drv.txEngine = .send ∨ s.drv.txEngine = .drain ∨ s.drv.txEngine = .hold then 1 else 0))) ∧
    Returns .rdIrqen s (s.host.irqen.setWidth 32) ∧
    Returns .rdErrcause s (match s.host.errcause with
      | .none => 0#32 | .illegalCmd => 1#32 | .txBusy => 2#32 | .txNotOpen => 3#32 | .txFull => 4#32
      | .txNotClosed => 5#32) ∧
    Returns .rdTxdata s 0#32 ∧
    Returns .rdCrc s (s.crc.setWidth 32) ∧
    Returns .rdCrcdata s 0#32 ∧
    Returns .rdGuard s (s.drv.guard.setWidth 32) ∧
    Returns .rdHold s (s.drv.hold.setWidth 32) ∧
    Returns .rdRxlen s (BitVec.ofNat 32 s.held.rxlen) ∧
    Returns .rdPaylen s (BitVec.ofNat 32 s.held.paylen) ∧
    Returns .rdTxlen s (BitVec.ofNat 32 s.tx.txlen) ∧
    Returns .rdState s (BitVec.ofNat 32
      ((match s.rx.rxState with | .idle => 0 | .inFrame => 1) + 2 * s.rx.rxAwait.toNat + 4 * s.rx.rxMatch.toNat
        + 8 * s.rx.rxOvf.toNat
        + 16 * (match s.drv.txEngine with | .idle => 0 | .guard => 1 | .send => 2 | .drain => 3 | .hold => 4)
        + 256 * (match s.tx.txb with | .empty => 0 | .opened => 1 | .closed => 2))) ∧
    Returns .rdAcclen s (BitVec.ofNat 32 s.rx.accLen) ∧
    Returns .rdTxptr s (BitVec.ofNat 32 s.drv.txptr) ∧
    Returns .rdTxcnt s (s.drv.txcnt.setWidth 32) ∧
    ∀ off, Returns (.rdRsvd200 off) s 0#32 ∧ Returns (.rdRsvd100 off) s 0#32 ∧ Returns (.rdRsvd080 off) s 0#32 ∧
      Returns (.rdRsvd040 off) s 0#32

/-- R262: a window read returns one byte in bits 7:0, the buffer's byte when the index is below the valid length; at or above
it the byte is open, and bits 31:8 are 0. -/
def Obligations.WindowReadsReturnTheBufferByte : Prop :=
  ∀ (s : State) (i : Byte),
    (∃ b : Byte, Returns (.rdRxraw i) s (b.setWidth 32) ∧
      (i.toNat < s.held.rxlen → ∀ c, s.held.rxraw[i.toNat]? = some c → b = c)) ∧
    (∃ b : Byte, Returns (.rdRxpay i) s (b.setWidth 32) ∧
      (i.toNat < s.held.paylen → ∀ c, s.held.rxpay[i.toNat]? = some c → b = c)) ∧
    (∃ b : Byte, Returns (.rdTxbuf i) s (b.setWidth 32) ∧
      (i.toNat < s.tx.txlen → ∀ c, s.tx.txbuf[i.toNat]? = some c → b = c))

/-- R69, its first sentence: an operation that reads an offset returns a value and changes nothing else; and a read repeated with
no other operation between returns the same value again. That an open byte of a window is held for such a repetition is the
model's reading of that sentence (notes/assumptions/7.md). -/
def Obligations.ReadsHaveNoSideEffectsAndRepeat : Prop :=
  (∀ (i : Instr) (s : State) (off : Offset), readOffset i = some off → ∃ v, Returns i s v) ∧
  (∀ (i : Instr) (s : State) (off : Offset) (x y : Input), s.port.inputs = [x, y] → decode x = .ok i → decode y = .ok i →
    readOffset i = some off →
    ∃ t v, steps 2 s = .next t ∧ t.port.readLog = s.port.readLog ++ [v, v] ∧
      t.cfg = s.cfg ∧ t.rx = s.rx ∧ t.held = s.held ∧ t.tx = s.tx ∧ t.crc = s.crc ∧ t.drv = s.drv ∧ t.host = s.host)

/-- R263: WR STATUS clears exactly the sticky bits written 1, with CMD_ERR also ERRCAUSE, and nothing else. -/
def Obligations.StatusWriteClearsTheBitsWrittenOne : Prop :=
  ∀ (s : State) (m : Word), exec (.wrStatus m) s = .next
    { s with
      rx := { s.rx with
        rxActivity := if m.getLsbD 2 then false else s.rx.rxActivity
        rxToolong := if m.getLsbD 4 then false else s.rx.rxToolong }
      held := { s.held with rxOverrun := if m.getLsbD 3 then false else s.held.rxOverrun }
      drv := { s.drv with txDone := if m.getLsbD 5 then false else s.drv.txDone }
      host :=
        { cmdErr := if m.getLsbD 6 then false else s.host.cmdErr
          errcause := if m.getLsbD 6 then .none else s.host.errcause
          irqen := s.host.irqen } }

/-- R264: WR IRQEN keeps bits 0, 2, 3, 4, 5 and 6 of WDATA and drops the others; nothing else changes. -/
def Obligations.IrqenWriteKeepsTheEnableBits : Prop :=
  ∀ (s : State) (v : Word), ∃ e : Byte,
    exec (.wrIrqen v) s = .next { s with host := { s.host with irqen := e } } ∧
    ∀ k, k < 8 → e.getLsbD k = (v.getLsbD k && decide (k ≠ 1 ∧ k ≠ 7))

/-- R265, R266: CMD NOP changes nothing, whatever WDATA[31:4] holds; a reserved command is rejected with ILLEGAL_CMD in every
state and changes nothing else; the words of the codes 6 to 15 are the reserved commands. -/
def Obligations.NopDoesNothingAndReservedCommandsAreRejected : Prop :=
  (∀ (s : State) (arg : BitVec 28), exec (.nop arg) s = .next s) ∧
  (∀ (s : State) (wdata : Word),
    exec (.cmdRsvd6to7 wdata) s = .next
      { s with host := { cmdErr := true, errcause := .illegalCmd, irqen := s.host.irqen } } ∧
    exec (.cmdRsvd8to15 wdata) s = .next
      { s with host := { cmdErr := true, errcause := .illegalCmd, irqen := s.host.irqen } }) ∧
  (∀ wdata : Word, 6 ≤ wdata.toNat % 16 → decode (.word (writeWord 0x000#12 wdata))
    = .ok (if wdata.toNat % 16 < 8 then .cmdRsvd6to7 wdata else .cmdRsvd8to15 wdata))

/-- R267: writes of read-only registers, reserved offsets and windows change nothing and are not rejected; reads of write-only
registers and reserved offsets return 0. -/
def Obligations.WritesWithoutEffectChangeNothing : Prop :=
  ∀ (s : State) (off : Offset) (i : Byte) (v : Word),
    exec (.wrErrcause v) s = .next s ∧ exec (.wrRxlen v) s = .next s ∧ exec (.wrPaylen v) s = .next s ∧
    exec (.wrTxlen v) s = .next s ∧ exec (.wrState v) s = .next s ∧ exec (.wrAcclen v) s = .next s ∧
    exec (.wrTxptr v) s = .next s ∧ exec (.wrTxcnt v) s = .next s ∧
    exec (.wrRsvd200 off v) s = .next s ∧ exec (.wrRsvd100 off v) s = .next s ∧
    exec (.wrRsvd080 off v) s = .next s ∧ exec (.wrRsvd040 off v) s = .next s ∧
    exec (.wrRxraw i v) s = .next s ∧ exec (.wrRxpay i v) s = .next s ∧ exec (.wrTxbuf i v) s = .next s ∧
    Returns .rdCmd s 0#32 ∧ Returns .rdTxdata s 0#32 ∧ Returns .rdCrcdata s 0#32 ∧
    Returns (.rdRsvd200 off) s 0#32 ∧ Returns (.rdRsvd100 off) s 0#32 ∧
    Returns (.rdRsvd080 off) s 0#32 ∧ Returns (.rdRsvd040 off) s 0#32

/-! ## Rejections, interrupt, outputs -/

/-- R300, R302, R310: only a write of CMD or TXDATA can be rejected, with CMD_ERR already set or not, and a rejection changes
CMD_ERR and ERRCAUSE and nothing else. -/
def Obligations.OnlyCmdAndTxdataWritesAreRejected : Prop :=
  ∀ (i : Instr) (s t : State), exec i s = .next t → t.host.cmdErr = true →
    s.host.cmdErr = false ∨ t.host.errcause ≠ s.host.errcause →
    (∃ wdata, encode i = .word (writeWord 0x000#12 wdata) ∨ encode i = .word (writeWord 0x010#12 wdata)) ∧
    t = { s with host := { cmdErr := true, errcause := t.host.errcause, irqen := s.host.irqen } } ∧
    t.host.errcause ≠ .none

/-- R306, R307: IRQ is the level that says an enabled source is pending; FRAME_TRUNC and TXEN are no sources. -/
def Obligations.IrqIsTheEnabledPendingLevel : Prop :=
  ∀ s : State,
    s.irq = true ↔
      (s.held.frameReady = true ∧ s.host.irqen.getLsbD 0 = true) ∨
      (s.rx.rxActivity = true ∧ s.host.irqen.getLsbD 2 = true) ∨
      (s.held.rxOverrun = true ∧ s.host.irqen.getLsbD 3 = true) ∨
      (s.rx.rxToolong = true ∧ s.host.irqen.getLsbD 4 = true) ∨
      (s.drv.txDone = true ∧ s.host.irqen.getLsbD 5 = true) ∨
      (s.host.cmdErr = true ∧ s.host.irqen.getLsbD 6 = true)

/-- R31, R36: TXEN is asserted exactly in SEND, DRAIN and HOLD, is STATUS bit 7, and is 0 after RESET; a byte is offered exactly
in SEND, the byte at `txptr`, and leaves the block only when LINE_ACCEPT takes it. -/
def Obligations.TxenAndTheOfferFollowThePhase : Prop :=
  (∀ s : State,
    (s.txen = true ↔ s.drv.txEngine = .send ∨ s.drv.txEngine = .drain ∨ s.drv.txEngine = .hold) ∧
    (s.statusValue.getLsbD 7 = s.txen) ∧
    (s.txValid = true ↔ s.drv.txEngine = .send) ∧
    (s.txValid = true → ∀ c, s.tx.txbuf[s.drv.txptr]? = some c → s.txData = c) ∧
    (∃ t, exec .reset s = .next t ∧ t.txen = false)) ∧
  (∀ (i : Instr) (s t : State), exec i s = .next t →
    t.port.lineLog = s.port.lineLog ∨
    (i = .lineAccept ∧ s.txValid = true ∧ t.port.lineLog = s.port.lineLog ++ [s.txData]))

/-- R306: what sets and what clears each of the six sources of the interrupt. CMD_ERR is set by a write of CMD or TXDATA that
records a cause, and wherever a cause is recorded it is set. That the bytes of the bus are received bytes, and so set
RX_ACTIVITY and the sources of an END, is the model's choice (notes/assumptions/5.md). -/
def Obligations.SourcesAreSetAndClearedByTheirEvents : Prop :=
  ∀ (i : Instr) (s t : State), exec i s = .next t →
    (s.held.frameReady = false → t.held.frameReady = true → i.received = some 0xAD#8) ∧
    (s.held.frameReady = true → t.held.frameReady = false → i = .reset ∨ ∃ arg, i = .rxRelease arg) ∧
    (i.received ≠ none → t.rx.rxActivity = true) ∧
    (s.rx.rxActivity = false → t.rx.rxActivity = true → i.received ≠ none) ∧
    (s.rx.rxActivity = true → t.rx.rxActivity = false → i = .reset ∨ ∃ m, i = .wrStatus m ∧ m.getLsbD 2 = true) ∧
    (s.held.rxOverrun = false → t.held.rxOverrun = true → i.received = some 0xAD#8 ∧ s.held.frameReady = true) ∧
    (s.held.rxOverrun = true → t.held.rxOverrun = false → i = .reset ∨ ∃ m, i = .wrStatus m ∧ m.getLsbD 3 = true) ∧
    (s.rx.rxToolong = false → t.rx.rxToolong = true → i.received = some 0xAD#8) ∧
    (s.rx.rxToolong = true → t.rx.rxToolong = false → i = .reset ∨ ∃ m, i = .wrStatus m ∧ m.getLsbD 4 = true) ∧
    (s.drv.txDone = false → t.drv.txDone = true → i = .tick ∧ s.drv.txEngine = .hold ∧ t.drv.txEngine = .idle) ∧
    (s.drv.txDone = true → t.drv.txDone = false → i = .reset ∨ ∃ m, i = .wrStatus m ∧ m.getLsbD 5 = true) ∧
    (s.host.cmdErr = false → t.host.cmdErr = true →
      t.host.errcause ≠ .none ∧
      ∃ wdata, encode i = .word (writeWord 0x000#12 wdata) ∨ encode i = .word (writeWord 0x010#12 wdata)) ∧
    (s.host.cmdErr = true → t.host.cmdErr = false → i = .reset ∨ ∃ m, i = .wrStatus m ∧ m.getLsbD 6 = true) ∧
    (t.host.errcause ≠ s.host.errcause → t.host.cmdErr = true ∨ i = .reset ∨ ∃ m, i = .wrStatus m ∧ m.getLsbD 6 = true)

/-! ## Steps, inputs and their order -/

/-- R12, R68: the step takes the input that waits first and runs the operation it names. The queue of inputs and the counters
`opIndex`, `readIndex` and `lastRead` that advance beside it are the model's choice (notes/assumptions/3.md, 6.md, 7.md). -/
def Obligations.StepRunsTheDecodedOperation : Prop :=
  ∀ (s : State) (x : Input) (rest : List Input) (i : Instr), s.port.inputs = x :: rest → decode x = .ok i →
    step s = exec i
      { s with port :=
        { s.port with
          inputs := rest
          opIndex := s.port.opIndex + 1
          readIndex :=
            if readOffset i ≠ none ∧ readOffset i = s.port.lastRead then s.port.readIndex else s.port.opIndex + 1
          lastRead := readOffset i } }

/-- R96: a step is refused when the input names no operation. That a step without an input is refused as well, as `noInput`, is
the model's choice (notes/assumptions/3.md); in every other case the step answers a next state. -/
def Obligations.StepIsRefusedExactlyWithoutAnOperation : Prop :=
  ∀ s : State,
    (s.port.inputs = [] → step s = .refused .noInput) ∧
    (∀ x rest e, s.port.inputs = x :: rest → decode x = .error e → step s = .refused (.noOperation e)) ∧
    (∀ x rest i, s.port.inputs = x :: rest → decode x = .ok i → ∃ t, step s = .next t ∧ t.port.inputs = rest)

/-- R302, R309: no operation stops the block: a queue of inputs that all name operations runs to its end. -/
def Obligations.NamedOperationsAlwaysRun : Prop :=
  ∀ s : State, InputsNameOperations s → ∃ t, steps s.port.inputs.length s = .next t ∧ t.port.inputs = []

/-- R73: in one cycle the host access comes before the events, whatever other events the cycle has: a clear of STATUS does not
lose an event that sets the same bit, a release lets the addressed frame that ends in the same cycle be delivered and not
counted as an overrun, and a read of STATUS sees the state before every event of the cycle. -/
def Obligations.HostAccessPrecedesTheEventsOfItsCycle : Prop :=
  ∀ (s : State) (m : Word) (rx : Option Byte) (accept idle tick : Bool), s.port.inputs = [] →
    let cycle (write : Bool) (word : BitVec 10) (wdata : Word) (rx : Option Byte) (tick : Bool) : List Input := Cycle.inputs
      { reset := false, host := some { write := write, word := word, wdata := wdata }, rxByte := rx,
        lineAccept := accept, lineIdle := idle, tick := tick }
    let addressedFrame := s.rx.rxState = .inFrame ∧ s.rx.rxAwait = false ∧ s.rx.rxMatch = true
    (∀ b, ∃ t, runInputs (cycle true 1#10 m (some b) tick) s = .next t ∧ t.rx.rxActivity = true) ∧
    (addressedFrame → s.rx.rxOvf = true ∨ s.cfg.rxDepth ≤ s.rx.accLen →
      ∃ t, runInputs (cycle true 1#10 m (some 0xAD#8) tick) s = .next t ∧ t.rx.rxToolong = true) ∧
    (addressedFrame → s.rx.rxOvf = false → s.rx.accLen < s.cfg.rxDepth → s.held.frameReady = true →
      ∃ t, runInputs (cycle true 1#10 m (some 0xAD#8) tick) s = .next t ∧ t.held.rxOverrun = true) ∧
    (s.drv.txEngine = .hold → s.drv.txcnt = 0#16 →
      ∃ t, runInputs (cycle true 1#10 m rx true) s = .next t ∧ t.drv.txDone = true) ∧
    (addressedFrame → s.rx.rxOvf = false → s.rx.accLen < s.cfg.rxDepth →
      ∃ t, runInputs (cycle true 0#10 0x00000005#32 (some 0xAD#8) tick) s = .next t ∧
        t.held.frameReady = true ∧ t.held.rxlen = s.rx.accLen + 1 ∧ t.held.rxOverrun = s.held.rxOverrun) ∧
    (∃ t, runInputs (cycle false 1#10 m rx tick) s = .next t ∧
      t.port.readLog = s.port.readLog ++ [s.statusValue])

/-- R359: in a quiescent state TICK, LINE_ACCEPT and LINE_IDLE change nothing. -/
def Obligations.QuiescentBlockIgnoresLineAndTime : Prop :=
  ∀ s : State, Quiescent s →
    exec .tick s = .next s ∧ exec .lineAccept s = .next s ∧ exec .lineIdle s = .next s

/-! ## Encoding -/

/-- The step-input words of 95_test_vectors.md, programs P1 to P6, decode to the operations their lines name. -/
def Obligations.WordsOfTheTestProgramsDecode : Prop :=
  decode (.word 0x000000000000#48) = .ok .reset ∧
  decode (.word 0x0100000000AC#48) = .ok (.rxByte 0xAC#8) ∧
  decode (.word 0x020000000000#48) = .ok .tick ∧
  decode (.word 0x030000000000#48) = .ok .lineAccept ∧
  decode (.word 0x040000000000#48) = .ok .lineIdle ∧
  decode (.word 0x400400000000#48) = .ok .rdStatus ∧
  decode (.word 0x480C00000000#48) = .ok (.rdRxpay 3#8) ∧
  decode (.word 0x4C2000000000#48) = .ok (.rdTxbuf 8#8) ∧
  decode (.word 0x801C00000002#48) = .ok (.wrGuard 2#32) ∧
  decode (.word 0x80100000008C#48) = .ok (.wrTxdata 0x8C#32) ∧
  decode (.word 0x800000000004#48) = .ok (.txGo 0#28) ∧
  decode (.word 0x800000000007#48) = .ok (.cmdRsvd6to7 7#32) ∧
  decode (.wire 0xAE#8) = .ok .wireEscape

/-- R96, R97: for every operation whose operands its row admits, decoding its encoding gives it back. -/
def Obligations.DecodingAnEncodingGivesTheOperation : Prop :=
  ∀ i : Instr, i.wellFormed = true → decode (encode i) = .ok i

/-- R96: a step-input word names no operation exactly when KIND is 11, EVT is 0x05 or more, or OFFSET bits 1:0 are not 00. -/
def Obligations.WordsThatNameNoOperation : Prop :=
  ∀ w : StepWord,
    (∃ e, decode (.word w) = .error e) ↔
      w.toNat / 2 ^ 46 = 3 ∨ (w.toNat / 2 ^ 46 = 0 ∧ 5 ≤ w.toNat / 2 ^ 40 % 64) ∨
      ((w.toNat / 2 ^ 46 = 1 ∨ w.toNat / 2 ^ 46 = 2) ∧ w.toNat / 2 ^ 32 % 4 ≠ 0)

/-- R98: the operation decoded from a word is well formed and the word lies in its row of opcode_table.json. -/
def Obligations.DecodedWordLiesInItsRow : Prop :=
  ∀ (w : StepWord) (i : Instr), decode (.word w) = .ok i →
    i.wellFormed = true ∧ i.row.bits = 48 ∧ i.row.holds w = true

/-- R98: a word that lies in a row of step-input words decodes to an operation of that very row, so no two rows overlap and the
order of the rows does not matter. -/
def Obligations.RowsOfTheOpcodeTableAreDisjoint : Prop :=
  ∀ (w : StepWord) (j : Instr), j.row.bits = 48 → j.row.holds w = true →
    ∃ i, decode (.word w) = .ok i ∧ i.row = j.row

/-- R96: the bits a word's kind ignores do not change the operation. -/
def Obligations.IgnoredBitsDoNotChangeTheOperation : Prop :=
  (∀ (evt : BitVec 6) (x y : BitVec 32) (b : Byte),
    decode (.word (0b00#2 ++ evt ++ x ++ b)) = decode (.word (0b00#2 ++ evt ++ y ++ b))) ∧
  (∀ (evt : BitVec 6) (x y : BitVec 32) (b c : Byte), evt ≠ 1#6 →
    decode (.word (0b00#2 ++ evt ++ x ++ b)) = decode (.word (0b00#2 ++ evt ++ y ++ c))) ∧
  (∀ (x y : BitVec 2) (off : Offset) (v w : Word),
    decode (.word (0b01#2 ++ x ++ off ++ v)) = decode (.word (0b01#2 ++ y ++ off ++ w))) ∧
  (∀ (x y : BitVec 2) (off : Offset) (v : Word),
    decode (.word (0b10#2 ++ x ++ off ++ v)) = decode (.word (0b10#2 ++ y ++ off ++ v)))

/-- R67, with R60 and R61: an access of the platform bus that is not 32 bits wide or not aligned is refused, and every other one
in the window at BLOCK_BASE is the access of its offset. The form `BusAccess` of such an access, and the refusal of every size
other than 4 where R67 names 8 and 16 bits, are the model's choice (notes/assumptions/14.md). -/
def Obligations.SubwordAndMisalignedAccessesAreRefused : Prop :=
  (∀ a : BusAccess, a.size ≠ 4 → ∃ e, decode (.bus a) = .error e) ∧
  (∀ (wr : Bool) (off : Offset) (v : Word), off.toNat % 4 ≠ 0 →
    ∃ e, decode (.bus { write := wr, addr := Config.blockBase + off.toNat, size := 4, wdata := v }) = .error e) ∧
  (∀ (wr : Bool) (off : Offset) (v : Word), off.toNat % 4 = 0 →
    ∃ i, decode (.bus { write := wr, addr := Config.blockBase + off.toNat, size := 4, wdata := v }) = .ok i ∧
      decode (.word (if wr then writeWord off v else readWord off)) = .ok i)
end

