-- ==== Sys2Proof/Laws/Buffers.lean ====
section
/-!
SUPPORT. What writing a run of bytes into a buffer does, and what the interior of a frame is.
-/

namespace Sys2Proof.Machine

@[simp] theorem writeAt_nil (buf : List Byte) (pos : Nat) : writeAt buf pos [] = buf := rfl

@[simp] theorem writeAt_cons (buf : List Byte) (pos : Nat) (b : Byte) (bytes : List Byte) :
    writeAt buf pos (b :: bytes) = writeAt (buf.set pos b) (pos + 1) bytes := rfl

/-- A buffer keeps its length. -/
@[simp] theorem length_writeAt (bytes buf : List Byte) (pos : Nat) : (writeAt buf pos bytes).length = buf.length := by
  induction bytes generalizing buf pos with
  | nil => rfl
  | cons b bytes ih => simp [ih]

/-- Bytes that fit replace exactly the positions from `pos` on that they cover. -/
theorem writeAt_eq (bytes buf : List Byte) (pos : Nat) (h : pos + bytes.length ≤ buf.length) :
    writeAt buf pos bytes = buf.take pos ++ bytes ++ buf.drop (pos + bytes.length) := by
  induction bytes generalizing buf pos with
  | nil => simp
  | cons b bytes ih =>
    simp only [List.length_cons] at h
    have hs : buf.set pos b = buf.take pos ++ b :: buf.drop (pos + 1) :=
      List.set_eq_take_append_cons_drop.trans (if_pos (by omega))
    have hl : (buf.take pos).length = pos := by simp; omega
    have he : pos + 1 + bytes.length - pos = bytes.length + 1 := by omega
    have hd : (buf.take pos).drop (pos + 1 + bytes.length) = [] := List.drop_of_length_le (by omega)
    have ht : (buf.take pos).take (pos + 1) = buf.take pos := List.take_of_length_le (by omega)
    rw [writeAt_cons, ih _ _ (by simp; omega), hs, List.take_append, List.drop_append, hl, hd, ht, he]
    simp only [Nat.add_sub_cancel_left, List.take_succ_cons, List.take_zero, List.drop_succ_cons, List.drop_drop,
      List.nil_append, List.append_assoc, List.cons_append, List.length_cons]
    rw [show pos + 1 + bytes.length = pos + (bytes.length + 1) by omega]

/-- The bytes below `pos` stay. -/
theorem take_writeAt (bytes buf : List Byte) (pos : Nat) (h : pos + bytes.length ≤ buf.length) :
    (writeAt buf pos bytes).take (pos + bytes.length) = buf.take pos ++ bytes := by
  rw [writeAt_eq bytes buf pos h, List.take_append_of_le_length] <;> simp
  omega

/-- The bytes above those written stay. -/
theorem drop_writeAt (bytes buf : List Byte) (pos : Nat) (h : pos + bytes.length ≤ buf.length) :
    (writeAt buf pos bytes).drop (pos + bytes.length) = buf.drop (pos + bytes.length) := by
  rw [writeAt_eq bytes buf pos h, List.drop_append_of_le_length] <;> simp
  omega

/-- One more byte behind the first `n` of a buffer. -/
theorem take_succ_set (buf : List Byte) (n : Nat) (b : Byte) (h : n < buf.length) :
    (buf.set n b).take (n + 1) = buf.take n ++ [b] :=
  take_writeAt [b] buf n h

/-- The interior of a frame is what stands between its delimiters. -/
theorem interiorOf_eq (buf : List Byte) (n : Nat) (a z : Byte) (mid : List Byte) (h : buf.take n = a :: (mid ++ [z]))
    (hn : n ≤ buf.length) : interiorOf buf n = mid := by
  have hl : n = mid.length + 2 := by
    have := congrArg List.length h
    simp at this; omega
  have : buf.take (n - 1) = (buf.take n).take (n - 1) := by rw [List.take_take]; congr 1; omega
  rw [interiorOf, this, h, hl]
  simp

theorem length_freeBytes (use : FreeUse) (draw n : Nat) : (Config.freeBytes use draw n).length = n := by
  simp [Config.freeBytes]

end Sys2Proof.Machine
end

