-- ==== Sys2Proof/Laws/Codec.lean ====
section
/-!
SUPPORT. The small facts about the codec's functions: which bytes are stuffed, how an interior is read one code at a time,
and how a CRC runs over a sequence.
-/

namespace Sys2Proof.Machine

@[simp] theorem endByte_ne_startByte : endByte ≠ startByte := by decide
@[simp] theorem escapeByte_ne_startByte : escapeByte ≠ startByte := by decide
@[simp] theorem escapeByte_ne_endByte : escapeByte ≠ endByte := by decide

/-- Neither of the block's addresses is a delimiter or an ESCAPE (R180). -/
theorem addrMatch_iff (b : Byte) : addrMatch b = true ↔ b = 0x14#8 ∨ b = 0x20#8 := by simp [addrMatch]

@[simp] theorem addrMatch_endByte : addrMatch endByte = false := by decide

theorem needsStuffing_iff (b : Byte) : needsStuffing b = true ↔ b = 0xAC#8 ∨ b = 0xAD#8 ∨ b = 0xAE#8 := by
  simp [needsStuffing, or_assoc]

/-- A byte that needs stuffing becomes an escape pair. -/
theorem stuffByte_special (b : Byte) (h : b = 0xAC#8 ∨ b = 0xAD#8 ∨ b = 0xAE#8) :
    stuffByte b = [0xAE#8, b ^^^ 0x80#8] := if_pos ((needsStuffing_iff b).2 h)

/-- Any other byte stays. -/
theorem stuffByte_plain (b : Byte) (h : ¬ (b = 0xAC#8 ∨ b = 0xAD#8 ∨ b = 0xAE#8)) : stuffByte b = [b] :=
  if_neg (mt (needsStuffing_iff b).1 h)

theorem length_stuffByte (b : Byte) :
    (stuffByte b).length = if b = 0xAC#8 ∨ b = 0xAD#8 ∨ b = 0xAE#8 then 2 else 1 := by
  split
  · rw [stuffByte_special b (by assumption)]; rfl
  · rw [stuffByte_plain b (by assumption)]; rfl

theorem length_stuffByte_pos (b : Byte) : 1 ≤ (stuffByte b).length := by rw [length_stuffByte]; split <;> omega

theorem length_stuffByte_le (b : Byte) : (stuffByte b).length ≤ 2 := by rw [length_stuffByte]; split <;> omega

/-- No stuffed byte is a delimiter. -/
theorem stuffByte_no_delimiter (b c : Byte) (h : c ∈ stuffByte b) : ¬ isDelimiter c := by
  unfold stuffByte at h
  split at h
  · rename_i hs
    rcases (needsStuffing_iff b).1 hs with rfl | rfl | rfl <;>
      (simp only [List.mem_cons, List.not_mem_nil, or_false] at h; rcases h with rfl | rfl; all_goals decide)
  · rename_i hs
    have : c = b := by simpa using h
    subst this
    intro hd
    exact hs ((needsStuffing_iff c).2 (by rcases hd with h | h <;> simp [h]))

@[simp] theorem stuff_nil : stuff [] = [] := rfl
@[simp] theorem stuff_cons (b : Byte) (p : List Byte) : stuff (b :: p) = stuffByte b ++ stuff p := rfl

@[simp] theorem stuff_append (p q : List Byte) : stuff (p ++ q) = stuff p ++ stuff q := by simp [stuff]

theorem stuff_no_delimiter (p : List Byte) (c : Byte) (h : c ∈ stuff p) : ¬ isDelimiter c := by
  obtain ⟨b, -, hb⟩ := List.mem_flatMap.1 h
  exact stuffByte_no_delimiter b c hb

theorem length_encodeFrame (p : List Byte) : (encodeFrame p).length = (stuff p).length + 2 := by simp [encodeFrame]

/-- The interior between the delimiters of a frame. -/
theorem encodeFrame_interior (p interior : List Byte) (h : encodeFrame p = [0xAC#8] ++ interior ++ [0xAD#8]) :
    interior = stuff p := by
  simpa [encodeFrame, eq_comm] using h

@[simp] theorem unstuff_nil : unstuff [] = ([], false) := rfl

/-- An ESCAPE and the byte after it are one code. -/
theorem unstuff_escape (c : Byte) (rest : List Byte) :
    unstuff (0xAE#8 :: c :: rest) = ((c ^^^ 0x80#8) :: (unstuff rest).1, (unstuff rest).2) := by simp [unstuff]

/-- Any other byte is a code of its own. -/
theorem unstuff_plain (b : Byte) (rest : List Byte) (h : b ≠ 0xAE#8) :
    unstuff (b :: rest) = (b :: (unstuff rest).1, (unstuff rest).2) := by
  cases rest <;> simp [unstuff, h]

/-- A decoded payload is no longer than its interior. -/
theorem length_unstuff_le (l : List Byte) : (unstuff l).1.length ≤ l.length := by
  fun_induction unstuff l <;> (simp_all; try omega)

@[simp] theorem crcShifts_zero (v : Byte) : crcShifts 0 v = v := rfl
@[simp] theorem crcShifts_succ (n : Nat) (v : Byte) : crcShifts (n + 1) v = crcShifts n (crcShift v) := rfl

/-- A step depends on the XOR of its arguments alone. -/
theorem crc8Step_xor (c b : Byte) : crc8Step c b = crc8Step 0x00#8 (c ^^^ b) := by simp [crc8Step]

@[simp] theorem crc8_nil : crc8 [] = 0x00#8 := rfl

/-- The CRC runs on over appended bytes. -/
theorem crc8_append_singleton (p : List Byte) (b : Byte) : crc8 (p ++ [b]) = crc8Step (crc8 p) b := by
  simp [crc8, List.foldl_append]

@[simp] theorem Unstuffer.start_out : Unstuffer.start.out = [] := rfl
@[simp] theorem Unstuffer.start_escaped : Unstuffer.start.escaped = false := rfl

end Sys2Proof.Machine
end

