-- ==== Sys2Proof/Laws/Decode.lean ====
section
/-!
SUPPORT. The fields of the words the encoder builds (30_encoding.md R96), the fields of a window offset (R97), and when a byte
offset is aligned. The decoder's laws rest on these.
-/

namespace Sys2Proof

/-- One bit of a field of an event word. -/
theorem getLsbD_eventWord (evt : BitVec 6) (data : Byte) (x : BitVec 32) (k : Nat) :
    (0b00#2 ++ evt ++ x ++ data : StepWord).getLsbD k
      = if k < 8 then data.getLsbD k else if k < 40 then x.getLsbD (k - 8)
        else if k < 46 then evt.getLsbD (k - 40) else false := by
  simp only [BitVec.getLsbD_append, Nat.sub_sub]
  split_ifs <;> first | rfl | (exfalso; omega) | simp

/-- One bit of an access word. -/
theorem getLsbD_accessWord (kind pad : BitVec 2) (off : Offset) (v : Word) (k : Nat) :
    (kind ++ pad ++ off ++ v : StepWord).getLsbD k
      = if k < 32 then v.getLsbD k else if k < 44 then off.getLsbD (k - 32)
        else if k < 46 then pad.getLsbD (k - 44) else kind.getLsbD (k - 46) := by
  simp only [BitVec.getLsbD_append, Nat.sub_sub]
  split_ifs <;> first | rfl | (exfalso; omega)

section EventWords
variable (evt : BitVec 6) (x : BitVec 32) (data : Byte)

@[simp] theorem wordKind_event : wordKind (0b00#2 ++ evt ++ x ++ data) = 0b00#2 := by
  ext i hi
  rw [wordKind, BitVec.getElem_extractLsb', getLsbD_eventWord]
  split_ifs <;> first | (exfalso; omega) | simp

@[simp] theorem wordEvt_event : wordEvt (0b00#2 ++ evt ++ x ++ data) = evt := by
  ext i hi
  rw [wordEvt, BitVec.getElem_extractLsb', getLsbD_eventWord]
  split_ifs <;> first | (exfalso; omega) | simp [hi]

@[simp] theorem wordData_event : wordData (0b00#2 ++ evt ++ x ++ data) = data := by
  ext i hi
  rw [wordData, BitVec.getElem_extractLsb', getLsbD_eventWord]
  split_ifs <;> first | (exfalso; omega) | simp [hi]

end EventWords

section AccessWords
variable (kind pad : BitVec 2) (off : Offset) (v : Word)

@[simp] theorem wordKind_access : wordKind (kind ++ pad ++ off ++ v) = kind := by
  ext i hi
  rw [wordKind, BitVec.getElem_extractLsb', getLsbD_accessWord]
  split_ifs <;> first | (exfalso; omega) | simp [hi]

@[simp] theorem wordOffset_access : wordOffset (kind ++ pad ++ off ++ v) = off := by
  ext i hi
  rw [wordOffset, BitVec.getElem_extractLsb', getLsbD_accessWord]
  split_ifs <;> first | (exfalso; omega) | simp [hi]

@[simp] theorem wordWdata_access : wordWdata (kind ++ pad ++ off ++ v) = v := by
  ext i hi
  rw [wordWdata, BitVec.getElem_extractLsb', getLsbD_accessWord]
  split_ifs <;> first | (exfalso; omega) | simp [hi]

end AccessWords

/-- A port event's word decodes by its EVT. -/
theorem decodeWord_event (evt : BitVec 6) (x : BitVec 32) (data : Byte) :
    decodeWord (0b00#2 ++ evt ++ x ++ data) = decodeEvent evt data := by
  unfold decodeWord
  rw [wordKind_event, wordEvt_event, wordData_event]
  rfl

/-- A host read's word decodes by its offset. -/
theorem decodeWord_read (pad : BitVec 2) (off : Offset) (v : Word) :
    decodeWord (0b01#2 ++ pad ++ off ++ v)
      = if offsetAligned off then .ok (decodeRead off) else .error (.misaligned off) := by
  unfold decodeWord
  rw [wordKind_access, wordOffset_access]
  rfl

/-- A host write's word decodes by its offset and its data. -/
theorem decodeWord_write (pad : BitVec 2) (off : Offset) (v : Word) :
    decodeWord (0b10#2 ++ pad ++ off ++ v)
      = if offsetAligned off then .ok (decodeWrite off v) else .error (.misaligned off) := by
  unfold decodeWord
  rw [wordKind_access, wordOffset_access, wordWdata_access]
  rfl

/-- One bit of the offset of a window's word. -/
theorem getLsbD_windowOffset (sel : BitVec 2) (i : Byte) (k : Nat) :
    (windowOffset sel i).getLsbD k
      = if k < 2 then false else if k < 10 then i.getLsbD (k - 2) else sel.getLsbD (k - 10) := by
  unfold windowOffset
  simp only [BitVec.getLsbD_append, Nat.sub_sub]
  split_ifs <;> first | rfl | (exfalso; omega) | simp

@[simp] theorem windowIndex_windowOffset (sel : BitVec 2) (i : Byte) : windowIndex (windowOffset sel i) = i := by
  ext k hk
  rw [windowIndex, BitVec.getElem_extractLsb', getLsbD_windowOffset]
  split_ifs <;> first | (exfalso; omega) | simp [hk]

@[simp] theorem windowSelect_windowOffset (sel : BitVec 2) (i : Byte) :
    (windowOffset sel i).extractLsb' 10 2 = sel := by
  ext k hk
  rw [BitVec.getElem_extractLsb', getLsbD_windowOffset]
  split_ifs <;> first | (exfalso; omega) | simp [hk]

@[simp] theorem offsetAligned_windowOffset (sel : BitVec 2) (i : Byte) : offsetAligned (windowOffset sel i) = true := by
  rw [offsetAligned, beq_iff_eq]
  ext k hk
  rw [BitVec.getElem_extractLsb', getLsbD_windowOffset, if_pos (by omega)]
  simp

/-- An offset is aligned when it is a multiple of 4. -/
theorem offsetAligned_iff (off : Offset) : offsetAligned off = true ↔ off.toNat % 4 = 0 := by
  rw [offsetAligned, beq_iff_eq, ← BitVec.toNat_inj]
  simp [BitVec.extractLsb'_toNat]

/-- The command code and the ignored bits of a command's write data (R95). -/
@[simp] theorem cmdCode (code : BitVec 4) (arg : BitVec 28) : (arg ++ code : Word).extractLsb' 0 4 = code :=
  BitVec.extractLsb'_append_eq_right

@[simp] theorem cmdArg (code : BitVec 4) (arg : BitVec 28) : (arg ++ code : Word).extractLsb' 4 28 = arg :=
  BitVec.extractLsb'_append_eq_left

end Sys2Proof
end

