-- ==== Sys2Proof/Laws/State.lean ====
section
/-!
SUPPORT. One lemma for each field that a named update leaves or sets, so that no proof unfolds the record updates: the
rejection, the queue of inputs, the beginning of an operation, a host read's log.
-/

namespace Sys2Proof.Machine

/-! ## `State.reject` (R302) -/

@[simp] theorem State.reject_cfg (c : Cause) (s : State) : (s.reject c).cfg = s.cfg := rfl
@[simp] theorem State.reject_rx (c : Cause) (s : State) : (s.reject c).rx = s.rx := rfl
@[simp] theorem State.reject_held (c : Cause) (s : State) : (s.reject c).held = s.held := rfl
@[simp] theorem State.reject_tx (c : Cause) (s : State) : (s.reject c).tx = s.tx := rfl
@[simp] theorem State.reject_crc (c : Cause) (s : State) : (s.reject c).crc = s.crc := rfl
@[simp] theorem State.reject_drv (c : Cause) (s : State) : (s.reject c).drv = s.drv := rfl
@[simp] theorem State.reject_port (c : Cause) (s : State) : (s.reject c).port = s.port := rfl
@[simp] theorem State.reject_cmdErr (c : Cause) (s : State) : (s.reject c).host.cmdErr = true := rfl
@[simp] theorem State.reject_errcause (c : Cause) (s : State) : (s.reject c).host.errcause = c := rfl
@[simp] theorem State.reject_irqen (c : Cause) (s : State) : (s.reject c).host.irqen = s.host.irqen := rfl

/-- A rejection, written out: the three host fields, and nothing else. -/
theorem State.reject_eq (c : Cause) (s : State) :
    s.reject c = { s with host := { cmdErr := true, errcause := c, irqen := s.host.irqen } } := rfl

/-! ## `State.feed` -/

@[simp] theorem State.feed_cfg (xs : List Input) (s : State) : (s.feed xs).cfg = s.cfg := rfl
@[simp] theorem State.feed_rx (xs : List Input) (s : State) : (s.feed xs).rx = s.rx := rfl
@[simp] theorem State.feed_held (xs : List Input) (s : State) : (s.feed xs).held = s.held := rfl
@[simp] theorem State.feed_tx (xs : List Input) (s : State) : (s.feed xs).tx = s.tx := rfl
@[simp] theorem State.feed_crc (xs : List Input) (s : State) : (s.feed xs).crc = s.crc := rfl
@[simp] theorem State.feed_drv (xs : List Input) (s : State) : (s.feed xs).drv = s.drv := rfl
@[simp] theorem State.feed_host (xs : List Input) (s : State) : (s.feed xs).host = s.host := rfl
@[simp] theorem State.feed_inputs (xs : List Input) (s : State) : (s.feed xs).port.inputs = s.port.inputs ++ xs := rfl
@[simp] theorem State.feed_readLog (xs : List Input) (s : State) : (s.feed xs).port.readLog = s.port.readLog := rfl
@[simp] theorem State.feed_lineLog (xs : List Input) (s : State) : (s.feed xs).port.lineLog = s.port.lineLog := rfl
@[simp] theorem State.feed_opIndex (xs : List Input) (s : State) : (s.feed xs).port.opIndex = s.port.opIndex := rfl
@[simp] theorem State.feed_readIndex (xs : List Input) (s : State) : (s.feed xs).port.readIndex = s.port.readIndex := rfl
@[simp] theorem State.feed_lastRead (xs : List Input) (s : State) : (s.feed xs).port.lastRead = s.port.lastRead := rfl

/-! ## `State.beginOp` -/

@[simp] theorem State.beginOp_cfg (i : Instr) (rest : List Input) (s : State) : (s.beginOp i rest).cfg = s.cfg := rfl
@[simp] theorem State.beginOp_rx (i : Instr) (rest : List Input) (s : State) : (s.beginOp i rest).rx = s.rx := rfl
@[simp] theorem State.beginOp_held (i : Instr) (rest : List Input) (s : State) : (s.beginOp i rest).held = s.held := rfl
@[simp] theorem State.beginOp_tx (i : Instr) (rest : List Input) (s : State) : (s.beginOp i rest).tx = s.tx := rfl
@[simp] theorem State.beginOp_crc (i : Instr) (rest : List Input) (s : State) : (s.beginOp i rest).crc = s.crc := rfl
@[simp] theorem State.beginOp_drv (i : Instr) (rest : List Input) (s : State) : (s.beginOp i rest).drv = s.drv := rfl
@[simp] theorem State.beginOp_host (i : Instr) (rest : List Input) (s : State) : (s.beginOp i rest).host = s.host := rfl
@[simp] theorem State.beginOp_inputs (i : Instr) (rest : List Input) (s : State) :
    (s.beginOp i rest).port.inputs = rest := rfl
@[simp] theorem State.beginOp_readLog (i : Instr) (rest : List Input) (s : State) :
    (s.beginOp i rest).port.readLog = s.port.readLog := rfl
@[simp] theorem State.beginOp_lineLog (i : Instr) (rest : List Input) (s : State) :
    (s.beginOp i rest).port.lineLog = s.port.lineLog := rfl
@[simp] theorem State.beginOp_opIndex (i : Instr) (rest : List Input) (s : State) :
    (s.beginOp i rest).port.opIndex = s.port.opIndex + 1 := rfl
@[simp] theorem State.beginOp_lastRead (i : Instr) (rest : List Input) (s : State) :
    (s.beginOp i rest).port.lastRead = readOffset i := rfl

/-- A read that repeats the read just taken keeps its draw. -/
theorem State.beginOp_readIndex_repeat (i : Instr) (rest : List Input) (s : State)
    (hi : (readOffset i).isSome) (h : readOffset i = s.port.lastRead) :
    (s.beginOp i rest).port.readIndex = s.port.readIndex := if_pos ⟨hi, h⟩

/-! ## `State.withFetchWord` -/

@[simp] theorem State.withFetchWord_cfg (s : State) (nbits w : Nat) : (s.withFetchWord nbits w).cfg = s.cfg := rfl
@[simp] theorem State.withFetchWord_rx (s : State) (nbits w : Nat) : (s.withFetchWord nbits w).rx = s.rx := rfl
@[simp] theorem State.withFetchWord_held (s : State) (nbits w : Nat) : (s.withFetchWord nbits w).held = s.held := rfl
@[simp] theorem State.withFetchWord_tx (s : State) (nbits w : Nat) : (s.withFetchWord nbits w).tx = s.tx := rfl
@[simp] theorem State.withFetchWord_crc (s : State) (nbits w : Nat) : (s.withFetchWord nbits w).crc = s.crc := rfl
@[simp] theorem State.withFetchWord_drv (s : State) (nbits w : Nat) : (s.withFetchWord nbits w).drv = s.drv := rfl
@[simp] theorem State.withFetchWord_host (s : State) (nbits w : Nat) : (s.withFetchWord nbits w).host = s.host := rfl
@[simp] theorem State.withFetchWord_inputs (s : State) (nbits w : Nat) :
    (s.withFetchWord nbits w).port.inputs = tableInput nbits w :: s.port.inputs := rfl

/-! ## `Ports.emit` -/

@[simp] theorem Ports.emit_inputs (b : Byte) (p : Ports) : (p.emit b).inputs = p.inputs := rfl
@[simp] theorem Ports.emit_readLog (b : Byte) (p : Ports) : (p.emit b).readLog = p.readLog := rfl
@[simp] theorem Ports.emit_lineLog (b : Byte) (p : Ports) : (p.emit b).lineLog = p.lineLog ++ [b] := rfl

/-! ## `State.afterReset` (R340) -/

@[simp] theorem State.afterReset_cfg (cfg : Config) (port : Ports) : (State.afterReset cfg port).cfg = cfg := rfl
@[simp] theorem State.afterReset_port (cfg : Config) (port : Ports) : (State.afterReset cfg port).port = port := rfl

/-! ## The accumulator's actions (R182 to R185) -/

@[simp] theorem Accumulator.active_rxState (a : Accumulator) : a.active.rxState = a.rxState := rfl
@[simp] theorem Accumulator.active_rxAwait (a : Accumulator) : a.active.rxAwait = a.rxAwait := rfl
@[simp] theorem Accumulator.active_rxMatch (a : Accumulator) : a.active.rxMatch = a.rxMatch := rfl
@[simp] theorem Accumulator.active_rxOvf (a : Accumulator) : a.active.rxOvf = a.rxOvf := rfl
@[simp] theorem Accumulator.active_acc (a : Accumulator) : a.active.acc = a.acc := rfl
@[simp] theorem Accumulator.active_accLen (a : Accumulator) : a.active.accLen = a.accLen := rfl
@[simp] theorem Accumulator.active_rxActivity (a : Accumulator) : a.active.rxActivity = true := rfl
@[simp] theorem Accumulator.active_rxToolong (a : Accumulator) : a.active.rxToolong = a.rxToolong := rfl
@[simp] theorem Accumulator.startFrame_rxState (a : Accumulator) : a.startFrame.rxState = .inFrame := rfl
@[simp] theorem Accumulator.startFrame_rxAwait (a : Accumulator) : a.startFrame.rxAwait = true := rfl
@[simp] theorem Accumulator.startFrame_rxMatch (a : Accumulator) : a.startFrame.rxMatch = false := rfl
@[simp] theorem Accumulator.startFrame_rxOvf (a : Accumulator) : a.startFrame.rxOvf = false := rfl
@[simp] theorem Accumulator.startFrame_acc (a : Accumulator) : a.startFrame.acc = a.acc.set 0 startByte := rfl
@[simp] theorem Accumulator.startFrame_accLen (a : Accumulator) : a.startFrame.accLen = 1 := rfl
@[simp] theorem Accumulator.startFrame_rxActivity (a : Accumulator) : a.startFrame.rxActivity = a.rxActivity := rfl
@[simp] theorem Accumulator.startFrame_rxToolong (a : Accumulator) : a.startFrame.rxToolong = a.rxToolong := rfl
@[simp] theorem Accumulator.close_rxState (a : Accumulator) : a.close.rxState = .idle := rfl
@[simp] theorem Accumulator.close_rxAwait (a : Accumulator) : a.close.rxAwait = false := rfl
@[simp] theorem Accumulator.close_rxMatch (a : Accumulator) : a.close.rxMatch = false := rfl
@[simp] theorem Accumulator.close_rxOvf (a : Accumulator) : a.close.rxOvf = false := rfl
@[simp] theorem Accumulator.close_acc (a : Accumulator) : a.close.acc = a.acc := rfl
@[simp] theorem Accumulator.close_accLen (a : Accumulator) : a.close.accLen = 0 := rfl
@[simp] theorem Accumulator.close_rxActivity (a : Accumulator) : a.close.rxActivity = a.rxActivity := rfl
@[simp] theorem Accumulator.close_rxToolong (a : Accumulator) : a.close.rxToolong = a.rxToolong := rfl
@[simp] theorem Accumulator.capture_rxState (b : Byte) (a : Accumulator) : (a.capture b).rxState = a.rxState := by
  unfold Accumulator.capture; split <;> simp_all
@[simp] theorem Accumulator.capture_rxAwait (b : Byte) (a : Accumulator) : (a.capture b).rxAwait = false := by
  unfold Accumulator.capture; split <;> simp_all
@[simp] theorem Accumulator.capture_rxMatch (b : Byte) (a : Accumulator) : (a.capture b).rxMatch = if a.rxAwait then addrMatch b else a.rxMatch := by
  unfold Accumulator.capture; split <;> simp_all
@[simp] theorem Accumulator.capture_rxOvf (b : Byte) (a : Accumulator) : (a.capture b).rxOvf = a.rxOvf := by
  unfold Accumulator.capture; split <;> simp_all
@[simp] theorem Accumulator.capture_acc (b : Byte) (a : Accumulator) : (a.capture b).acc = a.acc := by
  unfold Accumulator.capture; split <;> simp_all
@[simp] theorem Accumulator.capture_accLen (b : Byte) (a : Accumulator) : (a.capture b).accLen = a.accLen := by
  unfold Accumulator.capture; split <;> simp_all
@[simp] theorem Accumulator.capture_rxActivity (b : Byte) (a : Accumulator) : (a.capture b).rxActivity = a.rxActivity := by
  unfold Accumulator.capture; split <;> simp_all
@[simp] theorem Accumulator.capture_rxToolong (b : Byte) (a : Accumulator) : (a.capture b).rxToolong = a.rxToolong := by
  unfold Accumulator.capture; split <;> simp_all
@[simp] theorem Accumulator.append_rxState (n : Nat) (b : Byte) (a : Accumulator) :
    (a.append n b).rxState = a.rxState := by
  unfold Accumulator.append; split <;> rfl
@[simp] theorem Accumulator.append_rxAwait (n : Nat) (b : Byte) (a : Accumulator) :
    (a.append n b).rxAwait = a.rxAwait := by
  unfold Accumulator.append; split <;> rfl
@[simp] theorem Accumulator.append_rxMatch (n : Nat) (b : Byte) (a : Accumulator) :
    (a.append n b).rxMatch = a.rxMatch := by
  unfold Accumulator.append; split <;> rfl
@[simp] theorem Accumulator.append_rxOvf (n : Nat) (b : Byte) (a : Accumulator) :
    (a.append n b).rxOvf = if a.accLen < n then a.rxOvf else true := by
  unfold Accumulator.append; split <;> rfl
@[simp] theorem Accumulator.append_acc (n : Nat) (b : Byte) (a : Accumulator) :
    (a.append n b).acc = if a.accLen < n then a.acc.set a.accLen b else a.acc := by
  unfold Accumulator.append; split <;> rfl
@[simp] theorem Accumulator.append_accLen (n : Nat) (b : Byte) (a : Accumulator) :
    (a.append n b).accLen = if a.accLen < n then a.accLen + 1 else a.accLen := by
  unfold Accumulator.append; split <;> rfl
@[simp] theorem Accumulator.append_rxActivity (n : Nat) (b : Byte) (a : Accumulator) :
    (a.append n b).rxActivity = a.rxActivity := by
  unfold Accumulator.append; split <;> rfl
@[simp] theorem Accumulator.append_rxToolong (n : Nat) (b : Byte) (a : Accumulator) :
    (a.append n b).rxToolong = a.rxToolong := by
  unfold Accumulator.append; split <;> rfl

/-! ## `TxFrame.put` (R141 to R143) -/

@[simp] theorem TxFrame.put_txb (txb : TxbState) (bytes : List Byte) (f : TxFrame) : (f.put txb bytes).txb = txb := rfl
@[simp] theorem TxFrame.put_txbuf (txb : TxbState) (bytes : List Byte) (f : TxFrame) :
    (f.put txb bytes).txbuf = writeAt f.txbuf f.txlen bytes := rfl
@[simp] theorem TxFrame.put_txlen (txb : TxbState) (bytes : List Byte) (f : TxFrame) :
    (f.put txb bytes).txlen = f.txlen + bytes.length := rfl

/-! ## Received bytes touch the accumulator and the held frame alone (R189) -/

@[simp] theorem State.deliverFrame_cfg (s : State) : (s.deliverFrame).cfg = s.cfg := by
  unfold State.deliverFrame; repeat' split
  all_goals rfl
@[simp] theorem State.deliverFrame_tx (s : State) : (s.deliverFrame).tx = s.tx := by
  unfold State.deliverFrame; repeat' split
  all_goals rfl
@[simp] theorem State.deliverFrame_crc (s : State) : (s.deliverFrame).crc = s.crc := by
  unfold State.deliverFrame; repeat' split
  all_goals rfl
@[simp] theorem State.deliverFrame_drv (s : State) : (s.deliverFrame).drv = s.drv := by
  unfold State.deliverFrame; repeat' split
  all_goals rfl
@[simp] theorem State.deliverFrame_host (s : State) : (s.deliverFrame).host = s.host := by
  unfold State.deliverFrame; repeat' split
  all_goals rfl
@[simp] theorem State.deliverFrame_port (s : State) : (s.deliverFrame).port = s.port := by
  unfold State.deliverFrame; repeat' split
  all_goals rfl
@[simp] theorem State.endFrame_cfg (s : State) : (s.endFrame).cfg = s.cfg := by
  unfold State.endFrame; dsimp only; split <;> simp
@[simp] theorem State.endFrame_tx (s : State) : (s.endFrame).tx = s.tx := by
  unfold State.endFrame; dsimp only; split <;> simp
@[simp] theorem State.endFrame_crc (s : State) : (s.endFrame).crc = s.crc := by
  unfold State.endFrame; dsimp only; split <;> simp
@[simp] theorem State.endFrame_drv (s : State) : (s.endFrame).drv = s.drv := by
  unfold State.endFrame; dsimp only; split <;> simp
@[simp] theorem State.endFrame_host (s : State) : (s.endFrame).host = s.host := by
  unfold State.endFrame; dsimp only; split <;> simp
@[simp] theorem State.endFrame_port (s : State) : (s.endFrame).port = s.port := by
  unfold State.endFrame; dsimp only; split <;> simp
@[simp] theorem State.frameByte_cfg (b : Byte) (s : State) : (s.frameByte b).cfg = s.cfg := by
  unfold State.frameByte; dsimp only; split <;> simp
@[simp] theorem State.frameByte_tx (b : Byte) (s : State) : (s.frameByte b).tx = s.tx := by
  unfold State.frameByte; dsimp only; split <;> simp
@[simp] theorem State.frameByte_crc (b : Byte) (s : State) : (s.frameByte b).crc = s.crc := by
  unfold State.frameByte; dsimp only; split <;> simp
@[simp] theorem State.frameByte_drv (b : Byte) (s : State) : (s.frameByte b).drv = s.drv := by
  unfold State.frameByte; dsimp only; split <;> simp
@[simp] theorem State.frameByte_host (b : Byte) (s : State) : (s.frameByte b).host = s.host := by
  unfold State.frameByte; dsimp only; split <;> simp
@[simp] theorem State.frameByte_port (b : Byte) (s : State) : (s.frameByte b).port = s.port := by
  unfold State.frameByte; dsimp only; split <;> simp
@[simp] theorem State.takeByte_cfg (b : Byte) (s : State) : (s.takeByte b).cfg = s.cfg := by
  unfold State.takeByte; repeat' split
  all_goals simp
@[simp] theorem State.takeByte_tx (b : Byte) (s : State) : (s.takeByte b).tx = s.tx := by
  unfold State.takeByte; repeat' split
  all_goals simp
@[simp] theorem State.takeByte_crc (b : Byte) (s : State) : (s.takeByte b).crc = s.crc := by
  unfold State.takeByte; repeat' split
  all_goals simp
@[simp] theorem State.takeByte_drv (b : Byte) (s : State) : (s.takeByte b).drv = s.drv := by
  unfold State.takeByte; repeat' split
  all_goals simp
@[simp] theorem State.takeByte_host (b : Byte) (s : State) : (s.takeByte b).host = s.host := by
  unfold State.takeByte; repeat' split
  all_goals simp
@[simp] theorem State.takeByte_port (b : Byte) (s : State) : (s.takeByte b).port = s.port := by
  unfold State.takeByte; repeat' split
  all_goals simp
@[simp] theorem State.rxByte_cfg (b : Byte) (s : State) : (s.rxByte b).cfg = s.cfg := by
  simp [State.rxByte]
@[simp] theorem State.rxByte_tx (b : Byte) (s : State) : (s.rxByte b).tx = s.tx := by
  simp [State.rxByte]
@[simp] theorem State.rxByte_crc (b : Byte) (s : State) : (s.rxByte b).crc = s.crc := by
  simp [State.rxByte]
@[simp] theorem State.rxByte_drv (b : Byte) (s : State) : (s.rxByte b).drv = s.drv := by
  simp [State.rxByte]
@[simp] theorem State.rxByte_host (b : Byte) (s : State) : (s.rxByte b).host = s.host := by
  simp [State.rxByte]
@[simp] theorem State.rxByte_port (b : Byte) (s : State) : (s.rxByte b).port = s.port := by
  simp [State.rxByte]

end Sys2Proof.Machine
end

