-- ==== Sys2Proof/Laws/Exec.lean ====
section
/-!
SUPPORT. What each shared operation and each step can do, said once: a host read, the checks of the transmit-side writes, an
operation as a whole, a step as a whole, and a run of presented inputs.
-/

namespace Sys2Proof.Machine

/-- A host read answers the state with the value logged. -/
theorem State.hostRead_eq (v : Word) (s : State) :
    s.hostRead v = .next { s with port := { s.port with readLog := s.port.readLog ++ [v] } } := rfl

/-- What a write that needs an open frame ends in: TX_BUSY, TX_NOT_OPEN, or its own effect (R303). -/
theorem State.withOpenFrame_cases (s accepted : State) :
    (s.drv.txEngine ≠ .idle ∧ s.withOpenFrame accepted = s.reject .txBusy) ∨
    (s.drv.txEngine = .idle ∧ s.tx.txb ≠ .opened ∧ s.withOpenFrame accepted = s.reject .txNotOpen) ∨
    (s.drv.txEngine = .idle ∧ s.tx.txb = .opened ∧ s.withOpenFrame accepted = accepted) := by
  unfold State.withOpenFrame
  split
  · exact .inl ⟨‹_›, rfl⟩
  · split
    · exact .inr (.inl ⟨not_not.1 ‹_›, ‹_›, rfl⟩)
    · exact .inr (.inr ⟨not_not.1 ‹_›, not_not.1 ‹_›, rfl⟩)

/-- While a sequence runs, such a write is rejected with TX_BUSY. -/
theorem State.withOpenFrame_busy (s accepted : State) (h : s.drv.txEngine ≠ .idle) :
    s.withOpenFrame accepted = s.reject .txBusy := if_pos h

/-- With an open frame and no sequence, such a write has its own effect. -/
theorem State.withOpenFrame_open (s accepted : State) (h : s.drv.txEngine = .idle) (hb : s.tx.txb = .opened) :
    s.withOpenFrame accepted = accepted := by simp [State.withOpenFrame, h, hb]

/-! A unit that the accepted write leaves alone is left alone by the rejected one too. -/

theorem State.withOpenFrame_cfg (s accepted : State) (h : accepted.cfg = s.cfg) :
    (s.withOpenFrame accepted).cfg = s.cfg := by
  rcases s.withOpenFrame_cases accepted with ⟨-, e⟩ | ⟨-, -, e⟩ | ⟨-, -, e⟩ <;> simp [e, h]

theorem State.withOpenFrame_rx (s accepted : State) (h : accepted.rx = s.rx) :
    (s.withOpenFrame accepted).rx = s.rx := by
  rcases s.withOpenFrame_cases accepted with ⟨-, e⟩ | ⟨-, -, e⟩ | ⟨-, -, e⟩ <;> simp [e, h]

theorem State.withOpenFrame_held (s accepted : State) (h : accepted.held = s.held) :
    (s.withOpenFrame accepted).held = s.held := by
  rcases s.withOpenFrame_cases accepted with ⟨-, e⟩ | ⟨-, -, e⟩ | ⟨-, -, e⟩ <;> simp [e, h]

theorem State.withOpenFrame_drv (s accepted : State) (h : accepted.drv = s.drv) :
    (s.withOpenFrame accepted).drv = s.drv := by
  rcases s.withOpenFrame_cases accepted with ⟨-, e⟩ | ⟨-, -, e⟩ | ⟨-, -, e⟩ <;> simp [e, h]

theorem State.withOpenFrame_port (s accepted : State) (h : accepted.port = s.port) :
    (s.withOpenFrame accepted).port = s.port := by
  rcases s.withOpenFrame_cases accepted with ⟨-, e⟩ | ⟨-, -, e⟩ | ⟨-, -, e⟩ <;> simp [e, h]

/-- What a TICK can do to the driver (R222, R223, R224): end the guard, end the hold, count a wait down, or nothing. -/
theorem Driver.tick_cases (d : Driver) :
    (d.txEngine = .guard ∧ d.txcnt = 0#16 ∧ d.tick = { d with txEngine := .send }) ∨
    (d.txEngine = .hold ∧ d.txcnt = 0#16 ∧ d.tick = { d with txEngine := .idle, txDone := true }) ∨
    ((d.txEngine = .guard ∨ d.txEngine = .hold) ∧ d.txcnt ≠ 0#16 ∧ d.tick = { d with txcnt := d.txcnt - 1#16 }) ∨
    ((d.txEngine = .idle ∨ d.txEngine = .send ∨ d.txEngine = .drain) ∧ d.tick = d) := by
  unfold Driver.tick
  cases h : d.txEngine <;> by_cases hc : d.txcnt = 0#16 <;> simp [hc]

/-- The byte at an index of a buffer that has one. -/
theorem byteAt_of_getElem? {buf : List Byte} {i : Nat} {c : Byte} (h : buf[i]? = some c) (other : Byte) :
    byteAt buf i other = c := by
  simp [byteAt, h]

/-- What an operation ends in, whatever it is: a next state with the same parameters and the same waiting inputs (R302, R309:
no operation stops the block). -/
theorem exec_next (i : Instr) (s : State) :
    ∃ t, exec i s = .next t ∧ t.cfg = s.cfg ∧ t.port.inputs = s.port.inputs := by
  have hopen : ∀ u : State, u.cfg = s.cfg → u.port = s.port →
      ∃ t, (Host.Outcome.next (s.withOpenFrame u) : Result) = .next t ∧ t.cfg = s.cfg ∧ t.port.inputs = s.port.inputs := by
    intro u hc hp
    refine ⟨_, rfl, ?_⟩
    rcases s.withOpenFrame_cases u with ⟨-, h⟩ | ⟨-, -, h⟩ | ⟨-, -, h⟩ <;> simp [h, hc, hp]
  cases i
  case wrTxdata w => exact hopen _ (by split <;> rfl) (by split <;> rfl)
  case txClose a => exact hopen _ rfl rfl
  case txCloseCrc a => exact hopen _ (by split <;> rfl) (by split <;> rfl)
  case txOpen a => exact ⟨_, rfl, by split <;> exact ⟨rfl, rfl⟩⟩
  case txGo a => exact ⟨_, rfl, by repeat' split
                                   all_goals exact ⟨rfl, rfl⟩⟩
  case lineAccept => exact ⟨_, rfl, by split <;> exact ⟨rfl, rfl⟩⟩
  case lineIdle => exact ⟨_, rfl, by split <;> exact ⟨rfl, rfl⟩⟩
  case rxByte b => exact ⟨_, rfl, by simp⟩
  case wireStart => exact ⟨_, rfl, by simp⟩
  case wireEnd => exact ⟨_, rfl, by simp⟩
  case wireEscape => exact ⟨_, rfl, by simp⟩
  case wireData b => exact ⟨_, rfl, by simp⟩
  all_goals exact ⟨_, rfl, rfl, rfl⟩

/-- What a step that answers a next state did: it took the first input, decoded it and ran its operation. -/
theorem step_cases {s t : State} (h : step s = .next t) :
    ∃ x rest i, s.port.inputs = x :: rest ∧ decode x = .ok i ∧ exec i (s.beginOp i rest) = .next t := by
  unfold step at h
  split at h
  · exact absurd h (by simp)
  · rename_i x rest hx
    split at h
    · exact absurd h (by simp)
    · rename_i i hi
      exact ⟨x, rest, i, hx, hi, h⟩

@[simp] theorem steps_zero (s : State) : steps 0 s = .next s := rfl

theorem steps_succ (n : Nat) (s : State) :
    steps (n + 1) s = (match step s with
      | .next t => steps n t
      | .fault f => .fault f
      | .refused r => .refused r) := rfl

/-- A run of `n + 1` steps whose first step answers `t` goes on from `t`. -/
theorem steps_succ_of_step {n : Nat} {s t : State} (h : step s = .next t) : steps (n + 1) s = steps n t := by
  simp [steps, h]

/-- A run whose first input decodes to `i` and whose `i` answers `t` goes on from `t`. -/
theorem steps_succ_of_exec {n : Nat} {s t : State} {x : Input} {rest : List Input} {i : Instr}
    (hx : s.port.inputs = x :: rest) (hd : decode x = .ok i) (he : exec i (s.beginOp i rest) = .next t) :
    steps (n + 1) s = steps n t :=
  steps_succ_of_step (by simp only [step, hx, hd, he])

/-- A run of `m + n` steps whose first `m` answer `t` goes on from `t`. -/
theorem steps_add {m n : Nat} {s t : State} (h : steps m s = .next t) : steps (m + n) s = steps n t := by
  induction m generalizing s with
  | zero => simp_all
  | succ m ih =>
    rw [Nat.add_right_comm]
    rw [steps_succ] at h ⊢
    cases hs : step s with
    | next u => simp only [hs] at h ⊢; exact ih h
    | fault f => simp [hs] at h
    | refused r => simp [hs] at h

/-- One step of the host's run. -/
theorem core_run_succ (M : Host.Core) (n : Nat) (s : M.State) :
    M.run (n + 1) s = (match M.step s with
      | .next t => M.run n t
      | .fault f => .fault f
      | .refused r => .refused r) := rfl

/-- The machine the host runs is this one. -/
theorem steps_eq_run (n : Nat) (s : State) : steps n s = Sys2Proof.core.run n s := by
  induction n generalizing s with
  | zero => rfl
  | succ n ih =>
    refine Eq.trans ?_ (core_run_succ Sys2Proof.core n s).symm
    have hc : Sys2Proof.core.step s = step s := rfl
    rw [hc, steps_succ]
    cases step s with
    | next t => exact ih t
    | fault f => rfl
    | refused r => rfl

end Sys2Proof.Machine
end

