-- ==== Sys2Proof/Laws/PerInstr.lean ====
section
/-!
SUPPORT. The family EncodesInRow: every well-formed operation's encoding lies in its own row of opcode_table.json. One lemma
for each constructor of Instr.
-/

namespace Sys2Proof.Laws

open Sys2Proof

/-- The encoding of a well-formed operation lies in the operation's row: a step-input word under the row's mask, or a byte of
the bus under it. -/
def EncodesInRow.Statement (i : Instr) : Prop :=
  i.wellFormed = true →
    (∃ w, encode i = .word w ∧ i.row.bits = 48 ∧ i.row.holds w = true) ∨
    (∃ b, encode i = .wire b ∧ i.row.bits = 8 ∧ i.row.holds (b.setWidth 48) = true)

/-- An access word under a mask of whole fields. -/
theorem accessWord_and (kind pad mk mp : BitVec 2) (off mo : Offset) (v mv : Word) :
    (kind ++ pad ++ off ++ v : StepWord) &&& (mk ++ mp ++ mo ++ mv)
      = (kind &&& mk) ++ (pad &&& mp) ++ (off &&& mo) ++ (v &&& mv) := by
  ext k hk
  simp only [← BitVec.getLsbD_eq_getElem, BitVec.getLsbD_and, getLsbD_accessWord]
  split_ifs <;> rfl

/-- A host read lies in a row that masks KIND and the offset. -/
theorem readWord_holds (r : Row) (off mo po : Offset) (hm : r.mask = 0b11#2 ++ 0#2 ++ mo ++ 0#32)
    (hp : r.pattern = 0b01#2 ++ 0#2 ++ po ++ 0#32) (h : off &&& mo = po) : r.holds (readWord off) = true := by
  rw [Row.holds, beq_iff_eq, hm, hp, ← h]
  exact accessWord_and 0b01#2 0#2 0b11#2 0#2 off mo 0#32 0#32

/-- A host write lies in a row that masks KIND, the offset and some bits of the data. -/
theorem writeWord_holds (r : Row) (off mo po : Offset) (v mv pv : Word)
    (hm : r.mask = 0b11#2 ++ 0#2 ++ mo ++ mv) (hp : r.pattern = 0b10#2 ++ 0#2 ++ po ++ pv)
    (h : off &&& mo = po) (hv : v &&& mv = pv) : r.holds (writeWord off v) = true := by
  rw [Row.holds, beq_iff_eq, hm, hp, ← h, ← hv]
  exact accessWord_and 0b10#2 0#2 0b11#2 0#2 off mo v mv

/-- The command code of a command's write data. -/
theorem cmdData_and (code : BitVec 4) (arg : BitVec 28) :
    (arg ++ code : Word) &&& 0xF#32 = 0#28 ++ code := by
  have h : (0xF#32 : Word) = 0#28 ++ 0xF#4 := by decide
  rw [h, BitVec.and_append, BitVec.and_zero, show (0xF#4 : BitVec 4) = BitVec.allOnes 4 from rfl, BitVec.and_allOnes]

/-- Write data under a mask of the command code's bits. -/
theorem wdata_and_code (wdata : Word) (m : BitVec 4) :
    wdata &&& (0#28 ++ m) = 0#28 ++ (wdata.extractLsb' 0 4 &&& m) := by
  have h : wdata = wdata.extractLsb' 4 28 ++ wdata.extractLsb' 0 4 := by
    ext k hk
    simp only [← BitVec.getLsbD_eq_getElem, BitVec.getLsbD_append, BitVec.getLsbD_extractLsb']
    split_ifs with hk4
    · simp [hk4]
    · rw [show 4 + (k - 4) = k by omega]
      simp [show k - 4 < 28 by omega]
  conv => lhs; rw [h]
  rw [BitVec.and_append]
  simp

theorem toNat_code (wdata : Word) : (wdata.extractLsb' 0 4).toNat = wdata.toNat % 16 := by simp [BitVec.extractLsb'_toNat]

theorem EncodesInRow.off200 : ∀ off : Offset, offsetIn 0x200 0x3FC off = true → off &&& 0xE03#12 = 0x200#12 := by
  decide +kernel

theorem EncodesInRow.off100 : ∀ off : Offset, offsetIn 0x100 0x1FC off = true → off &&& 0xF03#12 = 0x100#12 := by
  decide +kernel

theorem EncodesInRow.off080 : ∀ off : Offset, offsetIn 0x80 0xFC off = true → off &&& 0xF83#12 = 0x80#12 := by
  decide +kernel

theorem EncodesInRow.off040 : ∀ off : Offset, offsetIn 0x40 0x7C off = true → off &&& 0xFC3#12 = 0x40#12 := by
  decide +kernel

/-- The offset of a window's word, under the bits its row masks. -/
theorem EncodesInRow.window (sel : BitVec 2) (i : Byte) : windowOffset sel i &&& 0xC03#12 = sel ++ 0#10 := by
  have h : (0xC03#12 : Offset) = 0b11#2 ++ 0#8 ++ 0b11#2 := by decide
  have hs : ∀ sel : BitVec 2, (sel &&& 0b11#2) ++ 0#8 ++ 0#2 = sel ++ 0#10 := by decide
  rw [h, windowOffset, BitVec.and_append, BitVec.and_append, BitVec.and_zero, BitVec.zero_and]
  exact hs sel

theorem EncodesInRow.cmdRsvd6to7Code (wdata : Word) (h : codeIn 6 7 wdata = true) : wdata &&& 0xE#32 = 0x6#32 := by
  have hc : ∀ c : BitVec 4, 6 ≤ c.toNat ∧ c.toNat ≤ 7 → c &&& 0xE#4 = 0x6#4 := by decide
  rw [codeIn, Bool.and_eq_true, decide_eq_true_iff, decide_eq_true_iff, ← toNat_code] at h
  exact (wdata_and_code wdata 0xE#4).trans (by rw [hc _ h]; rfl)

theorem EncodesInRow.cmdRsvd8to15Code (wdata : Word) (h : codeIn 8 15 wdata = true) : wdata &&& 0x8#32 = 0x8#32 := by
  have hc : ∀ c : BitVec 4, 8 ≤ c.toNat ∧ c.toNat ≤ 15 → c &&& 0x8#4 = 0x8#4 := by decide
  rw [codeIn, Bool.and_eq_true, decide_eq_true_iff, decide_eq_true_iff, ← toNat_code] at h
  exact (wdata_and_code wdata 0x8#4).trans (by rw [hc _ h]; rfl)

theorem EncodesInRow.reset : EncodesInRow.Statement .reset :=
  fun _ => .inl ⟨_, rfl, rfl, rfl⟩

theorem EncodesInRow.rxByte (b : Byte) : EncodesInRow.Statement (.rxByte b) :=
  fun _ => .inl ⟨_, rfl, rfl, by
    rw [Row.holds, beq_iff_eq]
    ext k hk
    simp only [← BitVec.getLsbD_eq_getElem, BitVec.getLsbD_and, eventWord, getLsbD_eventWord]
    interval_cases k <;> simp [Instr.row]⟩

theorem EncodesInRow.tick : EncodesInRow.Statement .tick :=
  fun _ => .inl ⟨_, rfl, rfl, rfl⟩

theorem EncodesInRow.lineAccept : EncodesInRow.Statement .lineAccept :=
  fun _ => .inl ⟨_, rfl, rfl, rfl⟩

theorem EncodesInRow.lineIdle : EncodesInRow.Statement .lineIdle :=
  fun _ => .inl ⟨_, rfl, rfl, rfl⟩

theorem EncodesInRow.rdCmd : EncodesInRow.Statement .rdCmd :=
  fun _ => .inl ⟨_, rfl, rfl, rfl⟩

theorem EncodesInRow.rdStatus : EncodesInRow.Statement .rdStatus :=
  fun _ => .inl ⟨_, rfl, rfl, rfl⟩

theorem EncodesInRow.rdIrqen : EncodesInRow.Statement .rdIrqen :=
  fun _ => .inl ⟨_, rfl, rfl, rfl⟩

theorem EncodesInRow.rdErrcause : EncodesInRow.Statement .rdErrcause :=
  fun _ => .inl ⟨_, rfl, rfl, rfl⟩

theorem EncodesInRow.rdTxdata : EncodesInRow.Statement .rdTxdata :=
  fun _ => .inl ⟨_, rfl, rfl, rfl⟩

theorem EncodesInRow.rdCrc : EncodesInRow.Statement .rdCrc :=
  fun _ => .inl ⟨_, rfl, rfl, rfl⟩

theorem EncodesInRow.rdCrcdata : EncodesInRow.Statement .rdCrcdata :=
  fun _ => .inl ⟨_, rfl, rfl, rfl⟩

theorem EncodesInRow.rdGuard : EncodesInRow.Statement .rdGuard :=
  fun _ => .inl ⟨_, rfl, rfl, rfl⟩

theorem EncodesInRow.rdHold : EncodesInRow.Statement .rdHold :=
  fun _ => .inl ⟨_, rfl, rfl, rfl⟩

theorem EncodesInRow.rdRxlen : EncodesInRow.Statement .rdRxlen :=
  fun _ => .inl ⟨_, rfl, rfl, rfl⟩

theorem EncodesInRow.rdPaylen : EncodesInRow.Statement .rdPaylen :=
  fun _ => .inl ⟨_, rfl, rfl, rfl⟩

theorem EncodesInRow.rdTxlen : EncodesInRow.Statement .rdTxlen :=
  fun _ => .inl ⟨_, rfl, rfl, rfl⟩

theorem EncodesInRow.rdState : EncodesInRow.Statement .rdState :=
  fun _ => .inl ⟨_, rfl, rfl, rfl⟩

theorem EncodesInRow.rdAcclen : EncodesInRow.Statement .rdAcclen :=
  fun _ => .inl ⟨_, rfl, rfl, rfl⟩

theorem EncodesInRow.rdTxptr : EncodesInRow.Statement .rdTxptr :=
  fun _ => .inl ⟨_, rfl, rfl, rfl⟩

theorem EncodesInRow.rdTxcnt : EncodesInRow.Statement .rdTxcnt :=
  fun _ => .inl ⟨_, rfl, rfl, rfl⟩

theorem EncodesInRow.nop (arg : BitVec 28) : EncodesInRow.Statement (.nop arg) :=
  fun _ => .inl ⟨_, rfl, rfl, writeWord_holds _ _ 0xFFF#12 0x0#12 _ 0xF#32 0x0#32 rfl rfl rfl
    ((cmdData_and _ arg).trans rfl)⟩

theorem EncodesInRow.txOpen (arg : BitVec 28) : EncodesInRow.Statement (.txOpen arg) :=
  fun _ => .inl ⟨_, rfl, rfl, writeWord_holds _ _ 0xFFF#12 0x0#12 _ 0xF#32 0x1#32 rfl rfl rfl
    ((cmdData_and _ arg).trans rfl)⟩

theorem EncodesInRow.txClose (arg : BitVec 28) : EncodesInRow.Statement (.txClose arg) :=
  fun _ => .inl ⟨_, rfl, rfl, writeWord_holds _ _ 0xFFF#12 0x0#12 _ 0xF#32 0x2#32 rfl rfl rfl
    ((cmdData_and _ arg).trans rfl)⟩

theorem EncodesInRow.txCloseCrc (arg : BitVec 28) : EncodesInRow.Statement (.txCloseCrc arg) :=
  fun _ => .inl ⟨_, rfl, rfl, writeWord_holds _ _ 0xFFF#12 0x0#12 _ 0xF#32 0x3#32 rfl rfl rfl
    ((cmdData_and _ arg).trans rfl)⟩

theorem EncodesInRow.txGo (arg : BitVec 28) : EncodesInRow.Statement (.txGo arg) :=
  fun _ => .inl ⟨_, rfl, rfl, writeWord_holds _ _ 0xFFF#12 0x0#12 _ 0xF#32 0x4#32 rfl rfl rfl
    ((cmdData_and _ arg).trans rfl)⟩

theorem EncodesInRow.rxRelease (arg : BitVec 28) : EncodesInRow.Statement (.rxRelease arg) :=
  fun _ => .inl ⟨_, rfl, rfl, writeWord_holds _ _ 0xFFF#12 0x0#12 _ 0xF#32 0x5#32 rfl rfl rfl
    ((cmdData_and _ arg).trans rfl)⟩

theorem EncodesInRow.cmdRsvd6to7 (wdata : Word) : EncodesInRow.Statement (.cmdRsvd6to7 wdata) :=
  fun h => .inl ⟨_, rfl, rfl, writeWord_holds _ _ 0xFFF#12 0x0#12 _ 0xE#32 0x6#32 rfl rfl rfl
    (EncodesInRow.cmdRsvd6to7Code wdata h)⟩

theorem EncodesInRow.cmdRsvd8to15 (wdata : Word) : EncodesInRow.Statement (.cmdRsvd8to15 wdata) :=
  fun h => .inl ⟨_, rfl, rfl, writeWord_holds _ _ 0xFFF#12 0x0#12 _ 0x8#32 0x8#32 rfl rfl rfl
    (EncodesInRow.cmdRsvd8to15Code wdata h)⟩

theorem EncodesInRow.wrStatus (wdata : Word) : EncodesInRow.Statement (.wrStatus wdata) :=
  fun _ => .inl ⟨_, rfl, rfl, writeWord_holds _ _ 0xFFF#12 0x4#12 _ 0#32 0#32 rfl rfl rfl BitVec.and_zero⟩

theorem EncodesInRow.wrIrqen (wdata : Word) : EncodesInRow.Statement (.wrIrqen wdata) :=
  fun _ => .inl ⟨_, rfl, rfl, writeWord_holds _ _ 0xFFF#12 0x8#12 _ 0#32 0#32 rfl rfl rfl BitVec.and_zero⟩

theorem EncodesInRow.wrErrcause (wdata : Word) : EncodesInRow.Statement (.wrErrcause wdata) :=
  fun _ => .inl ⟨_, rfl, rfl, writeWord_holds _ _ 0xFFF#12 0xC#12 _ 0#32 0#32 rfl rfl rfl BitVec.and_zero⟩

theorem EncodesInRow.wrTxdata (wdata : Word) : EncodesInRow.Statement (.wrTxdata wdata) :=
  fun _ => .inl ⟨_, rfl, rfl, writeWord_holds _ _ 0xFFF#12 0x10#12 _ 0#32 0#32 rfl rfl rfl BitVec.and_zero⟩

theorem EncodesInRow.wrCrc (wdata : Word) : EncodesInRow.Statement (.wrCrc wdata) :=
  fun _ => .inl ⟨_, rfl, rfl, writeWord_holds _ _ 0xFFF#12 0x14#12 _ 0#32 0#32 rfl rfl rfl BitVec.and_zero⟩

theorem EncodesInRow.wrCrcdata (wdata : Word) : EncodesInRow.Statement (.wrCrcdata wdata) :=
  fun _ => .inl ⟨_, rfl, rfl, writeWord_holds _ _ 0xFFF#12 0x18#12 _ 0#32 0#32 rfl rfl rfl BitVec.and_zero⟩

theorem EncodesInRow.wrGuard (wdata : Word) : EncodesInRow.Statement (.wrGuard wdata) :=
  fun _ => .inl ⟨_, rfl, rfl, writeWord_holds _ _ 0xFFF#12 0x1C#12 _ 0#32 0#32 rfl rfl rfl BitVec.and_zero⟩

theorem EncodesInRow.wrHold (wdata : Word) : EncodesInRow.Statement (.wrHold wdata) :=
  fun _ => .inl ⟨_, rfl, rfl, writeWord_holds _ _ 0xFFF#12 0x20#12 _ 0#32 0#32 rfl rfl rfl BitVec.and_zero⟩

theorem EncodesInRow.wrRxlen (wdata : Word) : EncodesInRow.Statement (.wrRxlen wdata) :=
  fun _ => .inl ⟨_, rfl, rfl, writeWord_holds _ _ 0xFFF#12 0x24#12 _ 0#32 0#32 rfl rfl rfl BitVec.and_zero⟩

theorem EncodesInRow.wrPaylen (wdata : Word) : EncodesInRow.Statement (.wrPaylen wdata) :=
  fun _ => .inl ⟨_, rfl, rfl, writeWord_holds _ _ 0xFFF#12 0x28#12 _ 0#32 0#32 rfl rfl rfl BitVec.and_zero⟩

theorem EncodesInRow.wrTxlen (wdata : Word) : EncodesInRow.Statement (.wrTxlen wdata) :=
  fun _ => .inl ⟨_, rfl, rfl, writeWord_holds _ _ 0xFFF#12 0x2C#12 _ 0#32 0#32 rfl rfl rfl BitVec.and_zero⟩

theorem EncodesInRow.wrState (wdata : Word) : EncodesInRow.Statement (.wrState wdata) :=
  fun _ => .inl ⟨_, rfl, rfl, writeWord_holds _ _ 0xFFF#12 0x30#12 _ 0#32 0#32 rfl rfl rfl BitVec.and_zero⟩

theorem EncodesInRow.wrAcclen (wdata : Word) : EncodesInRow.Statement (.wrAcclen wdata) :=
  fun _ => .inl ⟨_, rfl, rfl, writeWord_holds _ _ 0xFFF#12 0x34#12 _ 0#32 0#32 rfl rfl rfl BitVec.and_zero⟩

theorem EncodesInRow.wrTxptr (wdata : Word) : EncodesInRow.Statement (.wrTxptr wdata) :=
  fun _ => .inl ⟨_, rfl, rfl, writeWord_holds _ _ 0xFFF#12 0x38#12 _ 0#32 0#32 rfl rfl rfl BitVec.and_zero⟩

theorem EncodesInRow.wrTxcnt (wdata : Word) : EncodesInRow.Statement (.wrTxcnt wdata) :=
  fun _ => .inl ⟨_, rfl, rfl, writeWord_holds _ _ 0xFFF#12 0x3C#12 _ 0#32 0#32 rfl rfl rfl BitVec.and_zero⟩

theorem EncodesInRow.rdRsvd200 (off : Offset) : EncodesInRow.Statement (.rdRsvd200 off) :=
  fun h => .inl ⟨_, rfl, rfl, readWord_holds _ off 0xE03#12 0x200#12 rfl rfl (EncodesInRow.off200 off h)⟩

theorem EncodesInRow.rdRsvd100 (off : Offset) : EncodesInRow.Statement (.rdRsvd100 off) :=
  fun h => .inl ⟨_, rfl, rfl, readWord_holds _ off 0xF03#12 0x100#12 rfl rfl (EncodesInRow.off100 off h)⟩

theorem EncodesInRow.rdRsvd080 (off : Offset) : EncodesInRow.Statement (.rdRsvd080 off) :=
  fun h => .inl ⟨_, rfl, rfl, readWord_holds _ off 0xF83#12 0x80#12 rfl rfl (EncodesInRow.off080 off h)⟩

theorem EncodesInRow.rdRsvd040 (off : Offset) : EncodesInRow.Statement (.rdRsvd040 off) :=
  fun h => .inl ⟨_, rfl, rfl, readWord_holds _ off 0xFC3#12 0x40#12 rfl rfl (EncodesInRow.off040 off h)⟩

theorem EncodesInRow.wrRsvd200 (off : Offset) (wdata : Word) : EncodesInRow.Statement (.wrRsvd200 off wdata) :=
  fun h => .inl ⟨_, rfl, rfl, writeWord_holds _ off 0xE03#12 0x200#12 _ 0#32 0#32 rfl rfl
    (EncodesInRow.off200 off h) BitVec.and_zero⟩

theorem EncodesInRow.wrRsvd100 (off : Offset) (wdata : Word) : EncodesInRow.Statement (.wrRsvd100 off wdata) :=
  fun h => .inl ⟨_, rfl, rfl, writeWord_holds _ off 0xF03#12 0x100#12 _ 0#32 0#32 rfl rfl
    (EncodesInRow.off100 off h) BitVec.and_zero⟩

theorem EncodesInRow.wrRsvd080 (off : Offset) (wdata : Word) : EncodesInRow.Statement (.wrRsvd080 off wdata) :=
  fun h => .inl ⟨_, rfl, rfl, writeWord_holds _ off 0xF83#12 0x80#12 _ 0#32 0#32 rfl rfl
    (EncodesInRow.off080 off h) BitVec.and_zero⟩

theorem EncodesInRow.wrRsvd040 (off : Offset) (wdata : Word) : EncodesInRow.Statement (.wrRsvd040 off wdata) :=
  fun h => .inl ⟨_, rfl, rfl, writeWord_holds _ off 0xFC3#12 0x40#12 _ 0#32 0#32 rfl rfl
    (EncodesInRow.off040 off h) BitVec.and_zero⟩

theorem EncodesInRow.rdRxraw (i : Byte) : EncodesInRow.Statement (.rdRxraw i) :=
  fun _ => .inl ⟨_, rfl, rfl, readWord_holds _ _ 0xC03#12 0x400#12 rfl rfl (EncodesInRow.window _ i)⟩

theorem EncodesInRow.wrRxraw (i : Byte) (wdata : Word) : EncodesInRow.Statement (.wrRxraw i wdata) :=
  fun _ => .inl ⟨_, rfl, rfl, writeWord_holds _ _ 0xC03#12 0x400#12 _ 0#32 0#32 rfl rfl
    (EncodesInRow.window _ i) BitVec.and_zero⟩

theorem EncodesInRow.rdRxpay (i : Byte) : EncodesInRow.Statement (.rdRxpay i) :=
  fun _ => .inl ⟨_, rfl, rfl, readWord_holds _ _ 0xC03#12 0x800#12 rfl rfl (EncodesInRow.window _ i)⟩

theorem EncodesInRow.wrRxpay (i : Byte) (wdata : Word) : EncodesInRow.Statement (.wrRxpay i wdata) :=
  fun _ => .inl ⟨_, rfl, rfl, writeWord_holds _ _ 0xC03#12 0x800#12 _ 0#32 0#32 rfl rfl
    (EncodesInRow.window _ i) BitVec.and_zero⟩

theorem EncodesInRow.rdTxbuf (i : Byte) : EncodesInRow.Statement (.rdTxbuf i) :=
  fun _ => .inl ⟨_, rfl, rfl, readWord_holds _ _ 0xC03#12 0xC00#12 rfl rfl (EncodesInRow.window _ i)⟩

theorem EncodesInRow.wrTxbuf (i : Byte) (wdata : Word) : EncodesInRow.Statement (.wrTxbuf i wdata) :=
  fun _ => .inl ⟨_, rfl, rfl, writeWord_holds _ _ 0xC03#12 0xC00#12 _ 0#32 0#32 rfl rfl
    (EncodesInRow.window _ i) BitVec.and_zero⟩

theorem EncodesInRow.wireStart : EncodesInRow.Statement .wireStart :=
  fun _ => .inr ⟨_, rfl, rfl, rfl⟩

theorem EncodesInRow.wireEnd : EncodesInRow.Statement .wireEnd :=
  fun _ => .inr ⟨_, rfl, rfl, rfl⟩

theorem EncodesInRow.wireEscape : EncodesInRow.Statement .wireEscape :=
  fun _ => .inr ⟨_, rfl, rfl, rfl⟩

theorem EncodesInRow.wireData (b : Byte) : EncodesInRow.Statement (.wireData b) :=
  fun _ => .inr ⟨b, rfl, rfl, by simp [Row.holds, Instr.row]⟩

end Sys2Proof.Laws
end

