-- ==== Sys2Proof/Laws/Receive.lean ====
section
/-!
SUPPORT. What one received byte does, case by case (41_accumulator.md R182, R185): the lemmas that stand for unfolding RX_BYTE.
-/

namespace Sys2Proof.Machine

/-- A START opens a fresh frame, whatever the accumulator was doing. -/
theorem State.rxByte_start (s : State) : s.rxByte startByte = { s with rx := s.rx.active.startFrame } := by
  unfold State.rxByte State.takeByte
  split <;> exact if_pos rfl

/-- Noise outside a frame. -/
theorem State.rxByte_idle (s : State) (b : Byte) (h : s.rx.rxState = .idle) (hb : b ≠ startByte) :
    s.rxByte b = { s with rx := s.rx.active } := by
  simp [State.rxByte, State.takeByte, h, hb]

/-- The accumulator after a byte other than START has been appended and taken as the address if one is awaited. -/
def Accumulator.advance (depth : Nat) (b : Byte) (a : Accumulator) : Accumulator :=
  (a.active.append depth b).capture b

/-- A byte in a frame that is no delimiter. -/
theorem State.rxByte_data (s : State) (b : Byte) (h : s.rx.rxState = .inFrame) (hs : b ≠ startByte) (he : b ≠ endByte) :
    s.rxByte b = { s with rx := s.rx.advance s.cfg.rxDepth b } := by
  simp [State.rxByte, State.takeByte, State.frameByte, Accumulator.advance, h, hs, he]

/-- An END in a frame. -/
theorem State.rxByte_end (s : State) (h : s.rx.rxState = .inFrame) :
    s.rxByte endByte = ({ s with rx := s.rx.advance s.cfg.rxDepth endByte } : State).endFrame := by
  simp [State.rxByte, State.takeByte, State.frameByte, Accumulator.advance, h]

/-- What a received byte can do: one of these, and nothing else. -/
theorem State.rxByte_cases (s : State) (b : Byte) :
    (b = startByte ∧ s.rxByte b = { s with rx := s.rx.active.startFrame }) ∨
    (s.rx.rxState = .idle ∧ b ≠ startByte ∧ s.rxByte b = { s with rx := s.rx.active }) ∨
    (s.rx.rxState = .inFrame ∧ b ≠ startByte ∧ b ≠ endByte ∧ s.rxByte b = { s with rx := s.rx.advance s.cfg.rxDepth b }) ∨
    (s.rx.rxState = .inFrame ∧ b = endByte ∧
      s.rxByte b = ({ s with rx := s.rx.advance s.cfg.rxDepth endByte } : State).endFrame) := by
  by_cases hs : b = startByte
  · exact .inl ⟨hs, hs ▸ s.rxByte_start⟩
  · cases h : s.rx.rxState
    · exact .inr (.inl ⟨rfl, hs, s.rxByte_idle b h hs⟩)
    · by_cases he : b = endByte
      · exact .inr (.inr (.inr ⟨rfl, he, he ▸ s.rxByte_end h⟩))
      · exact .inr (.inr (.inl ⟨rfl, hs, he, s.rxByte_data b h hs he⟩))

/-- What the end of a frame can do (R185): discard it without a trace, mark it too long, mark an overrun, or deliver it. -/
theorem State.endFrame_cases (s : State) :
    (s.rx.rxMatch = false ∧ s.endFrame = { s with rx := s.rx.close }) ∨
    (s.rx.rxMatch = true ∧ s.rx.rxOvf = true ∧ s.endFrame = { s with rx := { s.rx.close with rxToolong := true } }) ∨
    (s.rx.rxMatch = true ∧ s.rx.rxOvf = false ∧ s.held.frameReady = true ∧
      s.endFrame = { s with rx := s.rx.close, held := { s.held with rxOverrun := true } }) ∨
    (s.rx.rxMatch = true ∧ s.rx.rxOvf = false ∧ s.held.frameReady = false ∧
      s.endFrame = { s with rx := s.rx.close, held := s.held.deliver s.rx.acc s.rx.accLen }) := by
  unfold State.endFrame State.deliverFrame
  cases s.rx.rxMatch <;> cases s.rx.rxOvf <;> cases s.held.frameReady <;> simp [Accumulator.close]

@[simp] theorem Accumulator.advance_rxState (n : Nat) (b : Byte) (a : Accumulator) :
    (a.advance n b).rxState = a.rxState := by
  simp [Accumulator.advance]

@[simp] theorem Accumulator.advance_rxAwait (n : Nat) (b : Byte) (a : Accumulator) :
    (a.advance n b).rxAwait = false := by
  simp [Accumulator.advance]

@[simp] theorem Accumulator.advance_rxMatch (n : Nat) (b : Byte) (a : Accumulator) :
    (a.advance n b).rxMatch = if a.rxAwait then addrMatch b else a.rxMatch := by
  simp [Accumulator.advance]

@[simp] theorem Accumulator.advance_rxOvf (n : Nat) (b : Byte) (a : Accumulator) :
    (a.advance n b).rxOvf = if a.accLen < n then a.rxOvf else true :=
  (Accumulator.capture_rxOvf b (a.active.append n b)).trans (Accumulator.append_rxOvf n b a.active)

@[simp] theorem Accumulator.advance_acc (n : Nat) (b : Byte) (a : Accumulator) :
    (a.advance n b).acc = if a.accLen < n then a.acc.set a.accLen b else a.acc :=
  (Accumulator.capture_acc b (a.active.append n b)).trans (Accumulator.append_acc n b a.active)

@[simp] theorem Accumulator.advance_accLen (n : Nat) (b : Byte) (a : Accumulator) :
    (a.advance n b).accLen = if a.accLen < n then a.accLen + 1 else a.accLen :=
  (Accumulator.capture_accLen b (a.active.append n b)).trans (Accumulator.append_accLen n b a.active)

@[simp] theorem Accumulator.advance_rxActivity (n : Nat) (b : Byte) (a : Accumulator) :
    (a.advance n b).rxActivity = true := by
  simp [Accumulator.advance]

@[simp] theorem Accumulator.advance_rxToolong (n : Nat) (b : Byte) (a : Accumulator) :
    (a.advance n b).rxToolong = a.rxToolong := by
  simp [Accumulator.advance]

end Sys2Proof.Machine
end

