-- ==== Sys2Proof/Tests/Slice0.lean ====
section
/-!
SUPPORT. The model's own tests: the checks of WellFormed, a word of the spec's encoding for every operation, one step of
every operation with a result taken from spec/95_test_vectors.md or worked out by hand from the rule named, and for every
statement of Obligations.lean with hypotheses a state and operands that meet them.
-/

namespace Sys2Proof.Tests

open Sys2Proof Sys2Proof.Machine

/-! ## WellFormed: an ill-formed term for each check -/

/-- R95: the codes 6 and 7 only. -/
theorem test_wellFormed_cmdRsvd6to7 :
    (Instr.cmdRsvd6to7 0x15#32).wellFormed = false ∧ (Instr.cmdRsvd6to7 0x8#32).wellFormed = false ∧
    (Instr.cmdRsvd6to7 0xFFFFFFF7#32).wellFormed = true := by decide

/-- R95: the codes 8 to 15 only. -/
theorem test_wellFormed_cmdRsvd8to15 :
    (Instr.cmdRsvd8to15 0x17#32).wellFormed = false ∧ (Instr.cmdRsvd8to15 0x18#32).wellFormed = true := by decide

/-- R63: reads of each reserved range, below it, above it and misaligned. -/
theorem test_wellFormed_reads_of_reserved_offsets :
    (Instr.rdRsvd200 0x1FC#12).wellFormed = false ∧ (Instr.rdRsvd200 0x400#12).wellFormed = false ∧
    (Instr.rdRsvd200 0x202#12).wellFormed = false ∧ (Instr.rdRsvd100 0x0FC#12).wellFormed = false ∧
    (Instr.rdRsvd100 0x200#12).wellFormed = false ∧ (Instr.rdRsvd100 0x101#12).wellFormed = false ∧
    (Instr.rdRsvd080 0x07C#12).wellFormed = false ∧ (Instr.rdRsvd080 0x100#12).wellFormed = false ∧
    (Instr.rdRsvd080 0x083#12).wellFormed = false ∧ (Instr.rdRsvd040 0x03C#12).wellFormed = false ∧
    (Instr.rdRsvd040 0x080#12).wellFormed = false ∧ (Instr.rdRsvd040 0x042#12).wellFormed = false := by decide

/-- R63: writes of each reserved range, below it, above it and misaligned. -/
theorem test_wellFormed_writes_of_reserved_offsets :
    (Instr.wrRsvd200 0x1FC#12 0#32).wellFormed = false ∧ (Instr.wrRsvd200 0x400#12 0#32).wellFormed = false ∧
    (Instr.wrRsvd200 0x202#12 0#32).wellFormed = false ∧ (Instr.wrRsvd100 0x0FC#12 0#32).wellFormed = false ∧
    (Instr.wrRsvd100 0x200#12 0#32).wellFormed = false ∧ (Instr.wrRsvd100 0x101#12 0#32).wellFormed = false ∧
    (Instr.wrRsvd080 0x07C#12 0#32).wellFormed = false ∧ (Instr.wrRsvd080 0x100#12 0#32).wellFormed = false ∧
    (Instr.wrRsvd080 0x083#12 0#32).wellFormed = false ∧ (Instr.wrRsvd040 0x03C#12 0#32).wellFormed = false ∧
    (Instr.wrRsvd040 0x080#12 0#32).wellFormed = false ∧ (Instr.wrRsvd040 0x042#12 0#32).wellFormed = false := by decide

/-- R90: a data byte is none of the three special ones. -/
theorem test_wellFormed_wireData :
    (Instr.wireData 0xAC#8).wellFormed = false ∧ (Instr.wireData 0xAD#8).wellFormed = false ∧
    (Instr.wireData 0xAE#8).wellFormed = false ∧ (Instr.wireData 0xAB#8).wellFormed = true := by decide

/-! ## Decoding: the words written out from 30_encoding.md R96 and 20_memory.md R62 -/

/-- The step-input word is the operation. -/
abbrev decodes (w : StepWord) (i : Instr) : Prop := decode (.word w) = .ok i

/-- R96, KIND 00: EVT 0 to 4, DATA in bits 7:0. -/
theorem test_decode_events :
    decodes 0x000000000000#48 .reset ∧
    decodes 0x0100000000AC#48 (.rxByte 0xAC#8) ∧
    decodes 0x0200000000FF#48 .tick ∧
    decodes 0x030000000000#48 .lineAccept ∧
    decodes 0x040000000000#48 .lineIdle := by decide

/-- R96 KIND 01, R62: the sixteen registers at 0x000, 0x004, … 0x03C. -/
theorem test_decode_register_reads :
    decodes 0x400000000000#48 .rdCmd ∧
    decodes 0x400400000000#48 .rdStatus ∧
    decodes 0x400800000000#48 .rdIrqen ∧
    decodes 0x400C00000000#48 .rdErrcause ∧
    decodes 0x401000000000#48 .rdTxdata ∧
    decodes 0x401400000000#48 .rdCrc ∧
    decodes 0x401800000000#48 .rdCrcdata ∧
    decodes 0x401C00000000#48 .rdGuard ∧
    decodes 0x402000000000#48 .rdHold ∧
    decodes 0x402400000000#48 .rdRxlen ∧
    decodes 0x402800000000#48 .rdPaylen ∧
    decodes 0x402C00000000#48 .rdTxlen ∧
    decodes 0x403000000000#48 .rdState ∧
    decodes 0x403400000000#48 .rdAcclen ∧
    decodes 0x403800000000#48 .rdTxptr ∧
    decodes 0x403C00000000#48 .rdTxcnt := by decide

/-- R95: a write of CMD by WDATA[3:0]; WDATA[31:4] is kept as the ignored argument. -/
theorem test_decode_commands :
    decodes 0x8000000005A0#48 (.nop 0x5A#28) ∧
    decodes 0x8000000005A1#48 (.txOpen 0x5A#28) ∧
    decodes 0x8000000005A2#48 (.txClose 0x5A#28) ∧
    decodes 0x8000000005A3#48 (.txCloseCrc 0x5A#28) ∧
    decodes 0x8000000005A4#48 (.txGo 0x5A#28) ∧
    decodes 0x8000000005A5#48 (.rxRelease 0x5A#28) ∧
    decodes 0x8000000005A7#48 (.cmdRsvd6to7 0x5A7#32) ∧
    decodes 0x800000000006#48 (.cmdRsvd6to7 6#32) ∧
    decodes 0x800000000008#48 (.cmdRsvd8to15 8#32) ∧
    decodes 0x8000FFFFFFFF#48 (.cmdRsvd8to15 0xFFFFFFFF#32) := by decide

/-- R96 KIND 10, R62: the registers from 0x004 on, with their whole WDATA. -/
theorem test_decode_register_writes :
    decodes 0x800412345678#48 (.wrStatus 0x12345678#32) ∧
    decodes 0x800812345678#48 (.wrIrqen 0x12345678#32) ∧
    decodes 0x800C12345678#48 (.wrErrcause 0x12345678#32) ∧
    decodes 0x801012345678#48 (.wrTxdata 0x12345678#32) ∧
    decodes 0x801412345678#48 (.wrCrc 0x12345678#32) ∧
    decodes 0x801812345678#48 (.wrCrcdata 0x12345678#32) ∧
    decodes 0x801C12345678#48 (.wrGuard 0x12345678#32) ∧
    decodes 0x802012345678#48 (.wrHold 0x12345678#32) ∧
    decodes 0x802412345678#48 (.wrRxlen 0x12345678#32) ∧
    decodes 0x802812345678#48 (.wrPaylen 0x12345678#32) ∧
    decodes 0x802C12345678#48 (.wrTxlen 0x12345678#32) ∧
    decodes 0x803012345678#48 (.wrState 0x12345678#32) ∧
    decodes 0x803412345678#48 (.wrAcclen 0x12345678#32) ∧
    decodes 0x803812345678#48 (.wrTxptr 0x12345678#32) ∧
    decodes 0x803C12345678#48 (.wrTxcnt 0x12345678#32) := by decide

/-- R63: both ends of the four reserved ranges. -/
theorem test_decode_reserved :
    decodes 0x420000000000#48 (.rdRsvd200 0x200#12) ∧
    decodes 0x43FC00000000#48 (.rdRsvd200 0x3FC#12) ∧
    decodes 0x83FC00000007#48 (.wrRsvd200 0x3FC#12 7#32) ∧
    decodes 0x410000000000#48 (.rdRsvd100 0x100#12) ∧
    decodes 0x41FC00000000#48 (.rdRsvd100 0x1FC#12) ∧
    decodes 0x81FC00000007#48 (.wrRsvd100 0x1FC#12 7#32) ∧
    decodes 0x408000000000#48 (.rdRsvd080 0x080#12) ∧
    decodes 0x40FC00000000#48 (.rdRsvd080 0x0FC#12) ∧
    decodes 0x80FC00000007#48 (.wrRsvd080 0x0FC#12 7#32) ∧
    decodes 0x404000000000#48 (.rdRsvd040 0x040#12) ∧
    decodes 0x407C00000000#48 (.rdRsvd040 0x07C#12) ∧
    decodes 0x807C00000007#48 (.wrRsvd040 0x07C#12 7#32) := by decide

/-- R53, R62, R97: the windows at 0x400, 0x800, 0xC00, index off[9:2]. -/
theorem test_decode_windows :
    decodes 0x440C00000000#48 (.rdRxraw 3#8) ∧
    decodes 0x47FC00000000#48 (.rdRxraw 255#8) ∧
    decodes 0x840000000009#48 (.wrRxraw 0#8 9#32) ∧
    decodes 0x480C00000000#48 (.rdRxpay 3#8) ∧
    decodes 0x4BFC00000000#48 (.rdRxpay 255#8) ∧
    decodes 0x880000000009#48 (.wrRxpay 0#8 9#32) ∧
    decodes 0x4C0C00000000#48 (.rdTxbuf 3#8) ∧
    decodes 0x4FFC00000000#48 (.rdTxbuf 255#8) ∧
    decodes 0x8C0000000009#48 (.wrTxbuf 0#8 9#32) := by decide

/-- R90: the byte classes of the bus. -/
theorem test_decode_wire :
    decode (.wire 0xAC#8) = .ok .wireStart ∧ decode (.wire 0xAD#8) = .ok .wireEnd ∧
    decode (.wire 0xAE#8) = .ok .wireEscape ∧ decode (.wire 0xAB#8) = .ok (.wireData 0xAB#8) ∧
    decode (.wire 0xAF#8) = .ok (.wireData 0xAF#8) := by decide

/-- R96: the words that name no operation. -/
theorem test_decode_refuses :
    decode (.word 0xC00000000000#48) = .error .kindNone ∧
    decode (.word 0x050000000000#48) = .error (.eventNone 5#6) ∧
    decode (.word 0x3F0000000000#48) = .error (.eventNone 0x3F#6) ∧
    decode (.word 0x400100000000#48) = .error (.misaligned 0x001#12) ∧
    decode (.word 0x800200000000#48) = .error (.misaligned 0x002#12) := by decide

/-- R96: a host access ignores bits 45:44, a read its bits 31:0, an event its bits 39:8. -/
theorem test_decode_ignored_bits :
    decodes 0x7004DEADBEEF#48 .rdStatus ∧ decodes 0xB01C00000002#48 (.wrGuard 2#32) ∧
    decodes 0x01FFFFFFFF20#48 (.rxByte 0x20#8) := by decide

/-- The host's numbering: a row of 8 bits is a byte of the bus, a row of 48 bits a step-input word. -/
theorem test_decodeTableWord :
    decodeTableWord 8 0xAC = some .wireStart ∧ decodeTableWord 8 0x00 = some (.wireData 0#8) ∧
    decodeTableWord 48 0x800000000004 = some (.txGo 0#28) ∧ decodeTableWord 48 0xC00000000000 = none := by decide

/-- R67: accesses of the platform bus that are not one aligned word. -/
theorem test_decode_bus_sizes :
    decode (.bus { write := false, addr := 0x1000, size := 1, wdata := 0#32 }) = .error (.notOneWord 1) ∧
    decode (.bus { write := true, addr := 0x1000, size := 2, wdata := 0#32 }) = .error (.notOneWord 2) := by
  constructor <;> rfl

/-! ## The states the tests start from -/

/-- A small block at rest: RX_DEPTH 5, TX_DEPTH 6, the reset values, zeros in the buffers. -/
def base : State where
  cfg := { rxDepth := 5, txDepth := 6, tickPeriodNs := 1000 }
  rx :=
    { rxState := .idle, rxAwait := false, rxMatch := false, rxOvf := false, acc := [0#8, 0#8, 0#8, 0#8, 0#8], accLen := 0,
      rxActivity := false, rxToolong := false }
  held :=
    { frameReady := false, frameTrunc := false, rxraw := [0#8, 0#8, 0#8, 0#8, 0#8], rxlen := 0,
      rxpay := [0#8, 0#8, 0#8, 0#8, 0#8], paylen := 0, rxOverrun := false }
  tx := { txb := .empty, txbuf := [0#8, 0#8, 0#8, 0#8, 0#8, 0#8], txlen := 0 }
  crc := 0x00#8
  drv := { txEngine := .idle, txptr := 0, txcnt := 0#16, guard := 520#16, hold := 1000#16, txDone := false }
  host := { cmdErr := false, errcause := .none, irqen := 0x00#8 }
  port := Ports.fresh

/-- `base` with a frame in progress (R24): AC 14 01 has arrived. -/
def receiving : State :=
  { base with rx :=
    { base.rx with
      rxState := .inFrame, rxMatch := true, acc := [0xAC#8, 0x14#8, 0x01#8, 0#8, 0#8], accLen := 3, rxActivity := true } }

/-- `base` right after a START. -/
def awaiting : State :=
  { base with rx :=
    { base.rx with
      rxState := .inFrame, rxAwait := true, acc := [0xAC#8, 0#8, 0#8, 0#8, 0#8], accLen := 1, rxActivity := true } }

/-- `receiving` with room for one byte more. -/
def receivingLast : State :=
  { receiving with rx := { receiving.rx with acc := [0xAC#8, 0x14#8, 0x01#8, 0x02#8, 0#8], accLen := 4 } }

/-- `receiving` with the accumulator full. -/
def receivingFull : State :=
  { receiving with rx := { receiving.rx with acc := [0xAC#8, 0x14#8, 0x01#8, 0x02#8, 0x03#8], accLen := 5 } }

/-- `receivingFull` after a byte that found no room (A17). -/
def receivingOverflowed : State := { receivingFull with rx := { receivingFull.rx with rxOvf := true } }

/-- The held frame AC 20 07 AD. -/
def someFrame : HeldFrame :=
  { frameReady := true, frameTrunc := false, rxraw := [0xAC#8, 0x20#8, 0x07#8, 0xAD#8, 0#8], rxlen := 4,
    rxpay := [0x20#8, 0x07#8, 0#8, 0#8, 0#8], paylen := 2, rxOverrun := false }

/-- `base` with that frame held. -/
def holding : State := { base with held := someFrame }

/-- `receiving` with a frame held. -/
def receivingHolding : State := { receiving with held := someFrame }

/-- `base` with an open frame AC 01 02 (R28); its CRC is 0x78 (program P5). -/
def opened : State :=
  { base with tx := { txb := .opened, txbuf := [0xAC#8, 0x01#8, 0x02#8, 0#8, 0#8, 0#8], txlen := 3 }, crc := 0x78#8 }

/-- `opened` with its last free byte but one taken. -/
def openedFull : State :=
  { base with tx := { txb := .opened, txbuf := [0xAC#8, 0x01#8, 0x02#8, 0x03#8, 0x04#8, 0#8], txlen := 5 } }

/-- `base` with the closed frame AC 01 02 AD. -/
def closed : State :=
  { base with tx := { txb := .closed, txbuf := [0xAC#8, 0x01#8, 0x02#8, 0xAD#8, 0#8, 0#8], txlen := 4 }, crc := 0x78#8 }

/-- `closed` in a phase of the sequence (R30). -/
def sending (e : TxEngine) (ptr : Nat) (cnt : BitVec 16) : State :=
  { closed with drv := { closed.drv with txEngine := e, txptr := ptr, txcnt := cnt } }

/-- `base` after a rejected WR TXDATA (X2). -/
def rejected : State := { base with host := { base.host with cmdErr := true, errcause := .txNotOpen } }

/-- The input waits at the block. -/
def given (xs : List Input) (s : State) : State := { s with port := { s.port with inputs := xs } }

/-- What a field holds in the next state. -/
def after {α : Type} (o : Result) (f : State → α) : Option α :=
  match o with
  | .next t => some (f t)
  | .fault _ => none
  | .refused _ => none

/-- What the host port returned. -/
def returned (i : Instr) (s : State) : Option (List Word) := after (exec i s) (·.port.readLog)

/-! ## One step of every operation -/

/-- R2 of the reset vectors: RESET while sending with GUARD 7 (R1 of 95_test_vectors.md section 2.8). -/
theorem test_reset :
    after (exec .reset { sending .send 1 0#16 with drv := { (sending .send 1 0#16).drv with guard := 7#16 } })
      (fun t => (t.txen, t.stateValue, t.tx.txlen, t.drv.guard, t.drv.hold, t.crc))
      = some (false, 0#32, 0, 520#16, 1000#16, 0x00#8) := by decide

/-- A13: the END of a frame that exactly fits RX_DEPTH = 5. -/
theorem test_rxByte_end_delivers :
    after (exec (.rxByte 0xAD#8) receivingLast) (fun t => (t.statusValue, t.held.rxlen, t.held.paylen))
      = some (0x05#32, 5, 3) ∧
    after (exec (.rxByte 0xAD#8) receivingLast) (fun t => (t.held.rxraw, t.held.rxpay.take 3))
      = some ([0xAC#8, 0x14#8, 0x01#8, 0x02#8, 0xAD#8], [0x14#8, 0x01#8, 0x02#8]) := by decide

/-- A17: the sixth byte finds the accumulator of five full. -/
theorem test_rxByte_overflow :
    after (exec (.rxByte 0x04#8) receivingFull) (fun t => (t.statusValue, t.stateValue, t.rx.accLen))
      = some (0x04#32, 0x00D#32, 5) := by decide

/-- Section 2.7, step 2: TICK at count 0 of the guard. -/
theorem test_tick_guard_ends :
    after (exec .tick (sending .guard 0 0#16)) (fun t => (t.drv.txEngine, t.txen)) = some (.send, true) := by decide

/-- Section 2.7, step 16: TICK at count 0 of the hold. -/
theorem test_tick_hold_ends :
    after (exec .tick (sending .hold 4 0#16)) (fun t => (t.drv.txEngine, t.txen, t.drv.txDone))
      = some (.idle, false, true) := by decide

/-- R225: the last byte. -/
theorem test_lineAccept_last :
    after (exec .lineAccept (sending .send 3 0#16)) (fun t => (t.drv.txEngine, t.drv.txptr, t.port.lineLog))
      = some (.drain, 4, [0xAD#8]) := by decide

/-- Section 2.7: LINE_ACCEPT outside SEND changes nothing. -/
theorem test_lineAccept_drain :
    after (exec .lineAccept (sending .drain 4 0#16)) (fun t => (t.drv, t.port.lineLog))
      = some ((sending .drain 4 0#16).drv, []) := by decide

/-- R226: the hold wait begins with HOLD. -/
theorem test_lineIdle :
    after (exec .lineIdle (sending .drain 4 0#16)) (fun t => (t.drv.txEngine, t.drv.txcnt)) = some (.hold, 1000#16) := by
  decide

/-- R2 of section 2.8: the write-only registers read 0, GUARD 0x208, HOLD 0x3E8. -/
theorem test_read_control :
    returned .rdCmd receiving = some [0#32] ∧ returned .rdTxdata opened = some [0#32] ∧
    returned .rdCrcdata opened = some [0#32] ∧ returned .rdGuard base = some [0x208#32] ∧
    returned .rdHold base = some [0x3E8#32] := by decide

/-- R38, R49: P1 reads STATE 0x210 in GUARD and STATUS with TXEN in SEND; A3 reads STATE 5 and STATUS 4. -/
theorem test_read_status_and_state :
    returned .rdState (sending .guard 0 5#16) = some [0x210#32] ∧
    returned .rdStatus (sending .send 0 0#16) = some [0x80#32] ∧
    returned .rdState receiving = some [0x005#32] ∧ returned .rdStatus receiving = some [0x04#32] := by decide

/-- R39 to R42: the byte registers. -/
theorem test_read_bytes :
    returned .rdIrqen { base with host := { base.host with irqen := 0x7D#8 } } = some [0x7D#32] ∧
    returned .rdErrcause { base with host := { base.host with cmdErr := true, errcause := .txNotClosed } } = some [5#32] ∧
    returned .rdCrc opened = some [0x78#32] := by decide

/-- R46 to R48, R50 to R52: the lengths and counts. -/
theorem test_read_counts :
    returned .rdRxlen holding = some [4#32] ∧ returned .rdPaylen holding = some [2#32] ∧
    returned .rdTxlen closed = some [4#32] ∧ returned .rdAcclen receiving = some [3#32] ∧
    returned .rdTxptr (sending .send 3 0#16) = some [3#32] ∧ returned .rdTxcnt (sending .guard 0 520#16) = some [520#32] := by
  decide

/-- R63: the reserved offsets read 0 and drop writes. -/
theorem test_reserved :
    returned (.rdRsvd200 0x200#12) opened = some [0#32] ∧ returned (.rdRsvd100 0x100#12) opened = some [0#32] ∧
    returned (.rdRsvd080 0x080#12) opened = some [0#32] ∧ returned (.rdRsvd040 0x07C#12) opened = some [0#32] ∧
    after (exec (.wrRsvd200 0x3FC#12 0xFF#32) opened) id = some opened ∧
    after (exec (.wrRsvd100 0x1FC#12 0xFF#32) opened) id = some opened ∧
    after (exec (.wrRsvd080 0x0FC#12 0xFF#32) opened) id = some opened ∧
    after (exec (.wrRsvd040 0x040#12 0xFF#32) opened) id = some opened := by decide

/-- R53, R262: the last valid byte of each window. -/
theorem test_window_reads :
    returned (.rdRxraw 3#8) holding = some [0xAD#32] ∧ returned (.rdRxpay 1#8) holding = some [0x07#32] ∧
    returned (.rdTxbuf 3#8) closed = some [0xAD#32] := by decide

/-- R53, R64: writes of the windows and of the read-only registers change nothing. -/
theorem test_ignored_writes :
    after (exec (.wrRxraw 0#8 1#32) holding) id = some holding ∧ after (exec (.wrRxpay 0#8 1#32) holding) id = some holding ∧
    after (exec (.wrTxbuf 0#8 1#32) closed) id = some closed ∧ after (exec (.wrErrcause 1#32) closed) id = some closed ∧
    after (exec (.wrRxlen 1#32) holding) id = some holding ∧ after (exec (.wrPaylen 1#32) holding) id = some holding ∧
    after (exec (.wrTxlen 1#32) closed) id = some closed ∧ after (exec (.wrState 1#32) closed) id = some closed ∧
    after (exec (.wrAcclen 9#32) receiving) id = some receiving ∧ after (exec (.wrTxptr 1#32) closed) id = some closed ∧
    after (exec (.wrTxcnt 1#32) closed) id = some closed := by decide

/-- R265: NOP, with junk in the ignored bits. -/
theorem test_nop : after (exec (.nop 0xFFFFFFF#28) opened) id = some opened := by decide

/-- R140: a fresh frame over a closed one. -/
theorem test_txOpen :
    after (exec (.txOpen 0#28) closed) (fun t => (t.tx.txb, t.tx.txlen, t.tx.txbuf.take 1, t.crc, t.drv.txptr))
      = some (.opened, 1, [0xAC#8], 0x00#8, 0) := by decide

/-- X11: TX_OPEN during a sequence. -/
theorem test_txOpen_busy :
    after (exec (.txOpen 0#28) (sending .guard 0 5#16)) (fun t => (t.host.errcause, t.tx)) = some (.txBusy, closed.tx) := by
  decide

/-- Section 2.2, E2: the byte 0xAC is stuffed as AE 2C; section 2.1: the CRC advances over 0xAC itself. -/
theorem test_wrTxdata_stuffs :
    after (exec (.wrTxdata 0x1AC#32) { opened with crc := 0x00#8 }) (fun t => (t.tx.txbuf, t.tx.txlen, t.crc))
      = some ([0xAC#8, 0x01#8, 0x02#8, 0xAE#8, 0x2C#8, 0#8], 5, 0x0C#8) := by decide

/-- X13: a byte that would leave no room for END. -/
theorem test_wrTxdata_full :
    after (exec (.wrTxdata 0x01#32) openedFull) (fun t => (t.host.errcause, t.tx, t.crc))
      = some (.txFull, openedFull.tx, openedFull.crc) := by decide

/-- X9: TX_CLOSE at TX_DEPTH - 1. -/
theorem test_txClose :
    after (exec (.txClose 0#28) openedFull) (fun t => (t.tx.txb, t.tx.txlen, t.tx.txbuf[5]?, t.host.cmdErr))
      = some (.closed, 6, some 0xAD#8, false) := by decide

/-- X3: TX_CLOSE without a frame. -/
theorem test_txClose_notOpen :
    after (exec (.txClose 0#28) base) (·.host.errcause) = some .txNotOpen := by decide

/-- R143: the checksum 0x78 of [01 02] (program P5) and END. -/
theorem test_txCloseCrc :
    after (exec (.txCloseCrc 0#28) opened) (fun t => (t.tx.txbuf, t.tx.txlen, t.tx.txb, t.crc))
      = some ([0xAC#8, 0x01#8, 0x02#8, 0x78#8, 0xAD#8, 0#8], 5, .closed, 0x78#8) := by decide

/-- T3: the checksum 0xAE is stuffed. -/
theorem test_txCloseCrc_stuffs :
    after (exec (.txCloseCrc 0#28) { opened with crc := 0xAE#8 }) (fun t => (t.tx.txbuf, t.tx.txlen))
      = some ([0xAC#8, 0x01#8, 0x02#8, 0xAE#8, 0x2E#8, 0xAD#8], 6) := by decide

/-- Section 2.7: TX_GO loads the count from GUARD. -/
theorem test_txGo :
    after (exec (.txGo 0#28) closed) (fun t => (t.drv.txEngine, t.drv.txcnt, t.txen)) = some (.guard, 520#16, false) := by
  decide

/-- X1: TX_GO without a closed frame. -/
theorem test_txGo_notClosed : after (exec (.txGo 0#28) opened) (·.host.errcause) = some .txNotClosed := by decide

/-- W3: RX_RELEASE of a truncated frame. -/
theorem test_rxRelease :
    after (exec (.rxRelease 1#28) { holding with held := { someFrame with frameTrunc := true } })
      (fun t => (t.statusValue, t.held.rxlen, t.held.paylen, t.host.cmdErr)) = some (0#32, 0, 0, false) := by decide

/-- X4, X5: reserved commands. -/
theorem test_reserved_commands :
    after (exec (.cmdRsvd6to7 0x5A7#32) base) (fun t => (t.statusValue, t.host.errcause)) = some (0x40#32, .illegalCmd) ∧
    after (exec (.cmdRsvd8to15 0x8#32) base) (fun t => (t.statusValue, t.host.errcause)) = some (0x40#32, .illegalCmd) := by
  decide

/-- W1: only bits 2 to 6 are cleared, FRAME_READY stays. -/
theorem test_wrStatus :
    after (exec (.wrStatus 0xFF#32)
        { holding with held := { someFrame with rxOverrun := true }, rx := { base.rx with rxActivity := true } })
      (·.statusValue) = some 0x01#32 := by decide

/-- W4: CMD_ERR and ERRCAUSE go together. -/
theorem test_wrStatus_cmdErr :
    after (exec (.wrStatus 0x40#32) { base with host := { base.host with cmdErr := true, errcause := .illegalCmd } })
      (fun t => (t.statusValue, t.host.errcause)) = some (0#32, .none) := by decide

/-- I1. -/
theorem test_wrIrqen : after (exec (.wrIrqen 0xFFFFFFFF#32) base) (·.host.irqen) = some 0x7D#8 := by decide

/-- Section 2.1: WR CRC, 0x1FF stores 0xFF, and WR CRCDATA advances by the byte: C8. -/
theorem test_crc_writes :
    after (exec (.wrCrc 0x1FF#32) base) (·.crc) = some 0xFF#8 ∧
    after (exec (.wrCrcdata 0x20#32) base) (·.crc) = some 0x23#8 := by decide

/-- R230, R231, R352: WDATA[15:0], and the running count stays. -/
theorem test_delay_writes :
    after (exec (.wrGuard 0x10002#32) (sending .guard 0 5#16)) (fun t => (t.drv.guard, t.drv.txcnt)) = some (2#16, 5#16) ∧
    after (exec (.wrHold 0xFFFFF#32) (sending .hold 4 5#16)) (fun t => (t.drv.hold, t.drv.txcnt))
      = some (0xFFFF#16, 5#16) := by decide

/-- R90, A2, A8, A9, A4: START, END and ESCAPE as the address, and another byte as the address. -/
theorem test_wire_bytes :
    after (exec .wireStart base) (fun t => (t.stateValue, t.rx.accLen)) = some (0x003#32, 1) ∧
    after (exec .wireEnd awaiting) (fun t => (t.stateValue, t.statusValue)) = some (0x000#32, 0x04#32) ∧
    after (exec .wireEscape awaiting) (·.stateValue) = some 0x001#32 ∧
    after (exec (.wireData 0x14#8) awaiting) (·.stateValue) = some 0x005#32 := by decide

/-- I2: IRQ rises with the delivery of a frame when FRAME_READY is enabled. -/
theorem test_irq :
    ({ base with host := { base.host with irqen := 0x01#8 } } : State).irq = false ∧
    ({ holding with host := { base.host with irqen := 0x01#8 } } : State).irq = true ∧
    ({ holding with host := { base.host with irqen := 0x3E#8 } } : State).irq = false := by decide

/-- Section 2.1: C2, C4, C9, C10 and C12. -/
theorem test_crc8 :
    crc8 [0x01#8] = 0x5E#8 ∧ crc8 [0x80#8] = 0x8C#8 ∧
    crc8 [0x31#8, 0x32#8, 0x33#8, 0x34#8, 0x35#8, 0x36#8, 0x37#8, 0x38#8, 0x39#8] = 0xA1#8 ∧
    crc8 [0x14#8, 0xFE#8, 0x01#8] = 0xCF#8 ∧
    crc8 [0x31#8, 0x32#8, 0x33#8, 0x34#8, 0x35#8, 0x36#8, 0x37#8, 0x38#8, 0x39#8, 0xA1#8] = 0x00#8 :=
  by decide +kernel

/-- Section 2.2: E1, E5 and E6. -/
theorem test_encodeFrame :
    encodeFrame [] = [0xAC#8, 0xAD#8] ∧ encodeFrame [0x2C#8] = [0xAC#8, 0x2C#8, 0xAD#8] ∧
    encodeFrame [0xAC#8, 0xAD#8, 0xAE#8] = [0xAC#8, 0xAE#8, 0x2C#8, 0xAE#8, 0x2D#8, 0xAE#8, 0x2E#8, 0xAD#8] := by decide

/-- Section 2.3: D3, D4, D5, D7 and D8. -/
theorem test_unstuff :
    unstuff [0xAE#8] = ([], true) ∧ unstuff [0xAE#8, 0xAE#8] = ([0x2E#8], false) ∧
    unstuff [0xAE#8, 0x05#8] = ([0x85#8], false) ∧
    unstuff [0x14#8, 0xAE#8, 0x2D#8, 0x01#8] = ([0x14#8, 0xAD#8, 0x01#8], false) ∧
    unstuff [0xAE#8, 0xAE#8, 0xAE#8] = ([0x2E#8], true) := by decide

/-- A cycle with an input of every kind. -/
def busyCycle (reset : Bool) : Cycle :=
  { reset := reset, host := some { write := true, word := 7#10, wdata := 2#32 }, rxByte := some 0x20#8,
    lineAccept := true, lineIdle := true, tick := true }

/-- R72: the order within a cycle, and RESET alone. -/
theorem test_cycle_order :
    Cycle.inputs (busyCycle false)
      = [.word 0x801C00000002#48, .word 0x010000000020#48, .word 0x030000000000#48, .word 0x040000000000#48,
        .word 0x020000000000#48] ∧
    Cycle.inputs (busyCycle true)
      = [.word 0x000000000000#48] := by decide

/-- One step: the input leaves the queue and its operation runs. -/
theorem test_step :
    after (step (given [.word 0x801400000005#48, .word 0x020000000000#48] base)) (fun t => (t.crc, t.port.inputs, t.port.opIndex))
      = some (0x05#8, [.word 0x020000000000#48], 1) := by decide

/-- The first operation after RESET, placed by the host's own way of placing it. -/
theorem test_withFetchWord :
    after (step (State.reset.withFetchWord 48 0x801C00000002)) (·.drv.guard) = some 2#16 := by decide

/-! ## A state and operands that meet the hypotheses of each statement -/

theorem inv_base : Inv base := by
  constructor <;> first | decide | exact fun h => absurd h (by decide)

theorem inv_receivingLast : Inv receivingLast := by
  constructor <;> first | decide | exact fun h => absurd h (by decide)

theorem inv_closed : Inv closed := by
  constructor <;> first
    | decide
    | exact fun h => absurd h (by decide)
    | exact fun _ => ⟨by decide, by decide, [0x01#8, 0x02#8], by decide⟩

theorem inv_sending : Inv (sending .send 3 0#16) := by
  constructor <;> first
    | decide
    | exact fun h => absurd h (by decide)
    | exact fun _ => ⟨by decide, by decide, [0x01#8, 0x02#8], by decide⟩

/-- ResetGivesEveryFieldItsResetValue, the cycle with RESET and every other input. -/
theorem witness_ResetGivesEveryFieldItsResetValue : (busyCycle true).reset = true := rfl

/-- InvariantsHoldAfterReset: the smallest and the largest legal parameters. -/
theorem witness_InvariantsHoldAfterReset :
    ({ rxDepth := 3, txDepth := 4, tickPeriodNs := 1 } : Config).Legal ∧
    ({ rxDepth := 256, txDepth := 256, tickPeriodNs := 1000 } : Config).Legal ∧
    ¬ ({ rxDepth := 2, txDepth := 4, tickPeriodNs := 1 } : Config).Legal := by decide

/-- EveryStepKeepsTheInvariants: a TICK waiting. -/
theorem witness_EveryStepKeepsTheInvariants :
    Inv (given [encode .tick] base) ∧ ∃ t, step (given [encode .tick] base) = .next t :=
  ⟨by constructor <;> first | decide | exact fun h => absurd h (by decide), _, rfl⟩

/-- ReachableStatesSatisfyTheInvariants: two steps from RESET. -/
theorem witness_ReachableStatesSatisfyTheInvariants :
    Config.default.Legal ∧ ∃ t, steps 2
      (State.afterReset Config.default { Ports.fresh with inputs := [encode (.txOpen 0#28), encode .rdState] }) = .next t :=
  ⟨by decide, _, rfl⟩

/-- StartOpensAFreshFrameAndNoiseIsDiscarded, the noise clause: a byte on either side of START. -/
theorem witness_StartOpensAFreshFrameAndNoiseIsDiscarded :
    base.rx.rxState = .idle ∧ 0xAB#8 ≠ 0xAC#8 ∧ 0xAD#8 ≠ 0xAC#8 := by decide

/-- FrameByteIsAppendedAndAddressCaptured: the address, a byte that fits, a byte that does not. -/
theorem witness_FrameByteIsAppendedAndAddressCaptured :
    awaiting.rx.rxState = .inFrame ∧ awaiting.rx.rxAwait = true ∧
    receiving.rx.rxState = .inFrame ∧ receiving.rx.accLen < receiving.cfg.rxDepth ∧
    receivingFull.rx.rxState = .inFrame ∧ ¬ receivingFull.rx.accLen < receivingFull.cfg.rxDepth ∧
    0xAE#8 ≠ 0xAC#8 ∧ 0xAE#8 ≠ 0xAD#8 := by decide

/-- EndByteClosesTheFrame, the frames it does not deliver: not addressed, overflowed by the END itself, overrun. -/
theorem witness_EndByteClosesTheFrame_discarded :
    (awaiting.rx.rxState = .inFrame ∧ (awaiting.rx.rxMatch && !awaiting.rx.rxAwait) = false) ∧
    (receivingFull.rx.rxState = .inFrame ∧ (receivingFull.rx.rxMatch && !receivingFull.rx.rxAwait) = true ∧
      (receivingFull.rx.rxOvf || !decide (receivingFull.rx.accLen < receivingFull.cfg.rxDepth)) = true) ∧
    (receivingHolding.rx.rxState = .inFrame ∧ (receivingHolding.rx.rxMatch && !receivingHolding.rx.rxAwait) = true ∧
      (receivingHolding.rx.rxOvf || !decide (receivingHolding.rx.accLen < receivingHolding.cfg.rxDepth)) = false ∧
      receivingHolding.held.frameReady = true) := by decide

/-- EndByteClosesTheFrame, the frame it delivers: the last room is for END. -/
theorem witness_EndByteClosesTheFrame_delivered :
    Inv receivingLast ∧ receivingLast.rx.rxState = .inFrame ∧ receivingLast.rx.rxMatch = true ∧
    receivingLast.rx.rxOvf = false ∧ receivingLast.rx.accLen < receivingLast.cfg.rxDepth ∧
    receivingLast.held.frameReady = false :=
  ⟨inv_receivingLast, by decide⟩

/-- OnlyDelimitersEndAFrame: an operation without a byte, and a byte in a frame whose accumulator is full. -/
theorem witness_OnlyDelimitersEndAFrame :
    (Instr.lineIdle ≠ .reset ∧ Instr.lineIdle.received = none ∧ (∀ m, Instr.lineIdle ≠ .wrStatus m) ∧
      ∃ t, exec .lineIdle receiving = .next t) ∧
    (Instr.rxByte 0xAE#8 ≠ .reset ∧ receivingFull.rx.rxState = .inFrame ∧ (Instr.rxByte 0xAE#8).received ≠ some 0xAC#8 ∧
      (Instr.rxByte 0xAE#8).received ≠ some 0xAD#8 ∧ ∃ t, exec (.rxByte 0xAE#8) receivingFull = .next t) :=
  ⟨⟨by decide, by decide, fun _ => Instr.noConfusion, _, rfl⟩, by decide, by decide, by decide, by decide, _, rfl⟩

/-- BusBytesActAsReceivedBytes, the data class: the bytes around the special ones. -/
theorem witness_BusBytesActAsReceivedBytes :
    (0xAB#8 ≠ 0xAC#8 ∧ 0xAB#8 ≠ 0xAD#8 ∧ 0xAB#8 ≠ 0xAE#8) ∧ (0xAF#8 ≠ 0xAC#8 ∧ 0xAF#8 ≠ 0xAD#8 ∧ 0xAF#8 ≠ 0xAE#8) := by
  decide

/-- ReceptionIgnoresTheTransmitSide, the discarded frame: a reply's first byte, a stuffed first byte, no byte at all. -/
theorem witness_ReceptionIgnoresTheTransmitSide :
    base.port.inputs = [] ∧
    (([0x00#8, 0x00#8] : List Byte)[0]? ≠ some 0x14#8 ∧ ([0x00#8, 0x00#8] : List Byte)[0]? ≠ some 0x20#8) ∧
    (([0xAE#8] : List Byte)[0]? ≠ some 0x14#8 ∧ ([0xAE#8] : List Byte)[0]? ≠ some 0x20#8) ∧
    (([] : List Byte)[0]? ≠ some 0x14#8 ∧ ([] : List Byte)[0]? ≠ some 0x20#8) := by decide

/-- HeldFrameIsAStableSnapshot: another frame's END arrives. -/
theorem witness_HeldFrameIsAStableSnapshot :
    receivingHolding.held.frameReady = true ∧ Instr.rxByte 0xAD#8 ≠ .reset ∧
    (∀ arg, Instr.rxByte 0xAD#8 ≠ .rxRelease arg) ∧ ∃ t, exec (.rxByte 0xAD#8) receivingHolding = .next t :=
  ⟨by decide, by decide, fun _ => Instr.noConfusion, _, rfl⟩

/-- WellFormedFrameIsDelivered: a frame that exactly fits, to either address. -/
theorem witness_WellFormedFrameIsDelivered :
    Inv base ∧ base.port.inputs = [] ∧ base.held.frameReady = false ∧
    ([0x14#8, 0xAD#8] : List Byte)[0]? = some 0x14#8 ∧ (encodeFrame [0x14#8, 0xAD#8]).length ≤ base.cfg.rxDepth ∧
    ([0x20#8] : List Byte)[0]? = some 0x20#8 ∧ (encodeFrame [0x20#8]).length ≤ base.cfg.rxDepth :=
  ⟨inv_base, by decide⟩

/-- AbandonedFrameDoesNotBlockTheNext: an abandoned frame longer than the accumulator. -/
theorem witness_AbandonedFrameDoesNotBlockTheNext :
    Inv base ∧ base.port.inputs = [] ∧ base.held.frameReady = false ∧
    (∀ b ∈ ([0x14#8, 0x01#8, 0x02#8, 0x03#8, 0x04#8, 0xAE#8] : List Byte), ¬ isDelimiter b) ∧
    ([0x14#8, 0x07#8] : List Byte)[0]? = some 0x14#8 ∧ (encodeFrame [0x14#8, 0x07#8]).length ≤ base.cfg.rxDepth :=
  ⟨inv_base, by decide⟩

/-- DecodingAFrameGivesThePayload and FrameInteriorHoldsNoDelimiter: E6 and E1. -/
theorem witness_DecodingAFrameGivesThePayload :
    encodeFrame [0xAC#8, 0xAD#8, 0xAE#8] = [0xAC#8] ++ [0xAE#8, 0x2C#8, 0xAE#8, 0x2D#8, 0xAE#8, 0x2E#8] ++ [0xAD#8] ∧
    encodeFrame [] = [0xAC#8] ++ [] ++ [0xAD#8] := by decide

/-- FrameInteriorHoldsNoDelimiter: E4. -/
theorem witness_FrameInteriorHoldsNoDelimiter :
    encodeFrame [0xAE#8] = [0xAC#8] ++ [0xAE#8, 0x2E#8] ++ [0xAD#8] := by decide

/-- TxOpenStartsAFreshFrame: at rest and during a sequence. -/
theorem witness_TxOpenStartsAFreshFrame :
    base.drv.txEngine = .idle ∧ (sending .guard 0 5#16).drv.txEngine ≠ .idle := by decide

/-- TxdataStuffsAByteOrIsRejected: the last byte that fits (stuffed and not), and each rejection. -/
theorem witness_TxdataStuffsAByteOrIsRejected :
    (opened.drv.txEngine = .idle ∧ opened.tx.txb = .opened ∧ opened.tx.txlen + 2 ≤ opened.cfg.txDepth - 1) ∧
    (sending .send 1 0#16).drv.txEngine ≠ .idle ∧
    (closed.drv.txEngine = .idle ∧ closed.tx.txb ≠ .opened) ∧
    (openedFull.drv.txEngine = .idle ∧ openedFull.tx.txb = .opened ∧
      ¬ openedFull.tx.txlen + 1 ≤ openedFull.cfg.txDepth - 1) := by decide

/-- TxCloseAppendsEndOrIsRejected: the fullest open frame, and each rejection. -/
theorem witness_TxCloseAppendsEndOrIsRejected :
    (openedFull.drv.txEngine = .idle ∧ openedFull.tx.txb = .opened) ∧ (sending .drain 4 0#16).drv.txEngine ≠ .idle ∧
    (base.drv.txEngine = .idle ∧ base.tx.txb ≠ .opened) := by decide

/-- TxCloseCrcAppendsTheChecksumOrIsRejected: a stuffed checksum that exactly fits, and each rejection. -/
theorem witness_TxCloseCrcAppendsTheChecksumOrIsRejected :
    (({ opened with crc := 0xAE#8 } : State).drv.txEngine = .idle ∧ ({ opened with crc := 0xAE#8 } : State).tx.txb = .opened ∧
      ({ opened with crc := 0xAE#8 } : State).tx.txlen + 3 ≤ opened.cfg.txDepth) ∧
    (sending .hold 4 1#16).drv.txEngine ≠ .idle ∧ (closed.drv.txEngine = .idle ∧ closed.tx.txb ≠ .opened) ∧
    (openedFull.drv.txEngine = .idle ∧ openedFull.tx.txb = .opened ∧ ¬ openedFull.tx.txlen + 2 ≤ openedFull.cfg.txDepth) := by
  decide

/-- CrcWritesSetOrAdvanceTheCrc, the run. -/
theorem witness_CrcWritesSetOrAdvanceTheCrc : (sending .send 1 0#16).port.inputs = [] := by decide

/-- BuildLeavesTheEncodedFrame: the empty payload, and one whose frame exactly fits. -/
theorem witness_BuildLeavesTheEncodedFrame :
    Inv base ∧ base.port.inputs = [] ∧ base.drv.txEngine = .idle ∧
    (encodeFrame ([0xAC#8] ++ [crc8 [0xAC#8]])).length ≤ base.cfg.txDepth ∧
    (encodeFrame [0xAC#8, 0xAD#8]).length ≤ base.cfg.txDepth ∧ (encodeFrame []).length ≤ base.cfg.txDepth :=
  ⟨inv_base, by decide⟩

/-- PayloadCapacity, the clause without stuffing: T3's payload, whose checksum is stuffed. -/
theorem witness_PayloadCapacity :
    (∀ b ∈ ([0x00#8, 0x00#8, 0x05#8, 0x00#8, 0x00#8, 0x8C#8] : List Byte), b ≠ 0xAC#8 ∧ b ≠ 0xAD#8 ∧ b ≠ 0xAE#8) ∧
    crc8 [0x00#8, 0x00#8, 0x05#8, 0x00#8, 0x00#8, 0x8C#8] = 0xAE#8 := ⟨by decide, by decide +kernel⟩

/-- TxGoStartsTheGuardOrIsRejected: a closed frame, a running sequence, an open frame. -/
theorem witness_TxGoStartsTheGuardOrIsRejected :
    (closed.drv.txEngine = .idle ∧ closed.tx.txb = .closed) ∧ (sending .send 0 0#16).drv.txEngine ≠ .idle ∧
    (opened.drv.txEngine = .idle ∧ opened.tx.txb ≠ .closed) := by decide

/-- TickCountsTheWaits: each wait at 0 and at 1, and a phase that does not wait. -/
theorem witness_TickCountsTheWaits :
    ((sending .guard 0 0#16).drv.txEngine = .guard ∧ (sending .guard 0 0#16).drv.txcnt.toNat = 0) ∧
    ((sending .hold 4 0#16).drv.txEngine = .hold ∧ (sending .hold 4 0#16).drv.txcnt.toNat = 0) ∧
    (sending .guard 0 1#16).drv.txcnt.toNat ≠ 0 ∧ (sending .hold 4 65535#16).drv.txcnt.toNat ≠ 0 ∧
    base.drv.txEngine = .idle := by decide

/-- LineEventsMoveTheDriver: the last byte in SEND, DRAIN, and a phase in which neither event counts. -/
theorem witness_LineEventsMoveTheDriver :
    (sending .send 3 0#16).drv.txEngine = .send ∧ (sending .send 3 0#16).tx.txbuf[3]? = some 0xAD#8 ∧
    (sending .drain 4 0#16).drv.txEngine = .drain ∧ (sending .drain 4 0#16).drv.txEngine ≠ .send ∧
    (sending .hold 4 0#16).drv.txEngine ≠ .drain := by decide

/-- DelaysAreReadOnlyWhenAWaitBegins: TICK, and WR STATUS. -/
theorem witness_DelaysAreReadOnlyWhenAWaitBegins :
    (∀ arg, Instr.tick ≠ .txGo arg) ∧ Instr.tick ≠ .rdGuard ∧ Instr.tick ≠ .reset ∧ (∀ wdata, Instr.tick ≠ .wrGuard wdata) ∧
    (Instr.tick ≠ .lineIdle ∧ Instr.tick ≠ .rdHold ∧ ∀ wdata, Instr.tick ≠ .wrHold wdata) ∧
    ∃ t, exec .tick (sending .guard 0 1#16) = .next t :=
  ⟨fun _ => Instr.noConfusion, by decide, by decide, fun _ => Instr.noConfusion,
    ⟨by decide, by decide, fun _ => Instr.noConfusion⟩, _, rfl⟩

/-- WaitEndsOnTheTickAfterItsCount: a guard of 0, a hold of 2. -/
theorem witness_WaitEndsOnTheTickAfterItsCount :
    (sending .guard 0 0#16).port.inputs = [] ∧ (sending .guard 0 0#16).drv.txEngine = .guard ∧
    0 ≤ (sending .guard 0 0#16).drv.txcnt.toNat ∧
    (sending .hold 4 2#16).port.inputs = [] ∧ (sending .hold 4 2#16).drv.txEngine = .hold ∧
    2 ≤ (sending .hold 4 2#16).drv.txcnt.toNat := by decide

/-- WholeSequenceSendsTheFrame. -/
theorem witness_WholeSequenceSendsTheFrame :
    Inv closed ∧ closed.port.inputs = [] ∧ closed.drv.txEngine = .idle ∧ closed.tx.txb = .closed :=
  ⟨inv_closed, by decide⟩

/-- TransmitBufferIsLockedDuringASequence: WR TXDATA in GUARD (X10). -/
theorem witness_TransmitBufferIsLockedDuringASequence :
    (sending .guard 0 5#16).drv.txEngine ≠ .idle ∧ Instr.wrTxdata 0x55#32 ≠ .reset ∧
    ∃ t, exec (.wrTxdata 0x55#32) (sending .guard 0 5#16) = .next t :=
  ⟨by decide, by decide, _, rfl⟩

/-- OnlyTheHoldOrResetEndsASequence: the TICK that ends the hold, a write in GUARD, and LINE_ACCEPT. -/
theorem witness_OnlyTheHoldOrResetEndsASequence :
    ((sending .hold 4 0#16).drv.txEngine ≠ .idle ∧
      ∃ t, exec .tick (sending .hold 4 0#16) = .next t ∧ t.drv.txEngine = .idle) ∧
    ((sending .guard 0 0#16).drv.txEngine ≠ .idle ∧ ∃ wdata, Instr.wrTxdata 0x55#32 = .wrTxdata wdata) ∧
    ∃ t, exec .lineAccept (sending .send 3 0#16) = .next t :=
  ⟨⟨by decide, _, rfl, rfl⟩, ⟨by decide, _, rfl⟩, _, rfl⟩

/-- RegisterReadsReturnTheirFields: a state in the middle of sending. -/
theorem witness_RegisterReadsReturnTheirFields : Inv (sending .send 3 0#16) := inv_sending

/-- WindowReadsReturnTheBufferByte: the last valid index of each window. -/
theorem witness_WindowReadsReturnTheBufferByte :
    ((3#8).toNat < holding.held.rxlen ∧ holding.held.rxraw[(3#8).toNat]? = some 0xAD#8) ∧
    ((1#8).toNat < holding.held.paylen ∧ holding.held.rxpay[(1#8).toNat]? = some 0x07#8) ∧
    ((3#8).toNat < closed.tx.txlen ∧ closed.tx.txbuf[(3#8).toNat]? = some 0xAD#8) := by decide

/-- ReadsHaveNoSideEffectsAndRepeat, one read: a register and a window. -/
theorem witness_ReadsHaveNoSideEffectsAndRepeat_once :
    readOffset .rdStatus = some 0x004#12 ∧ readOffset (.rdTxbuf 255#8) = some 0xFFC#12 := by decide

/-- ReadsHaveNoSideEffectsAndRepeat, two reads: an open byte of a window, read twice, the second time with other ignored bits. -/
theorem witness_ReadsHaveNoSideEffectsAndRepeat_twice :
    (given [.word 0x480000000000#48, .word 0x480000000001#48] base).port.inputs
      = [.word 0x480000000000#48, .word 0x480000000001#48] ∧
    decode (.word 0x480000000000#48) = .ok (.rdRxpay 0#8) ∧ decode (.word 0x480000000001#48) = .ok (.rdRxpay 0#8) ∧
    readOffset (.rdRxpay 0#8) = some 0x800#12 := by decide

/-- NopDoesNothingAndReservedCommandsAreRejected: the reserved codes at both ends of both rows. -/
theorem witness_NopDoesNothingAndReservedCommandsAreRejected :
    6 ≤ (0x6#32).toNat % 16 ∧ 6 ≤ (0x7#32).toNat % 16 ∧ 6 ≤ (0x8#32).toNat % 16 ∧ 6 ≤ (0xFFFFFFFF#32).toNat % 16 := by decide

/-- OnlyCmdAndTxdataWritesAreRejected: X3, and X14's second rejection with CMD_ERR already set. -/
theorem witness_OnlyCmdAndTxdataWritesAreRejected :
    (∃ t, exec (.txClose 0#28) base = .next t ∧ t.host.cmdErr = true ∧ base.host.cmdErr = false) ∧
    (∃ t, exec (.txGo 0#28) rejected = .next t ∧ t.host.cmdErr = true ∧ rejected.host.cmdErr = true ∧
      t.host.errcause ≠ rejected.host.errcause) :=
  ⟨⟨_, rfl, rfl, rfl⟩, _, rfl, rfl, rfl, by decide⟩

/-- TxenAndTheOfferFollowThePhase: SEND at the last byte, which LINE_ACCEPT takes. -/
theorem witness_TxenAndTheOfferFollowThePhase :
    (sending .send 3 0#16).txValid = true ∧ (sending .send 3 0#16).tx.txbuf[3]? = some 0xAD#8 ∧
    ∃ t, exec .lineAccept (sending .send 3 0#16) = .next t :=
  ⟨by decide, by decide, _, rfl⟩

/-- SourcesAreSetAndClearedByTheirEvents: an END that delivers, an END that overruns, a clear of every source, the end of a
hold, a release, a rejection that sets CMD_ERR and a clear of it. -/
theorem witness_SourcesAreSetAndClearedByTheirEvents :
    after (exec (.rxByte 0xAD#8) receivingLast) (fun t => (receivingLast.held.frameReady, t.held.frameReady))
      = some (false, true) ∧
    after (exec (.rxByte 0xAD#8) receivingHolding) (fun t => (receivingHolding.held.rxOverrun, t.held.rxOverrun))
      = some (false, true) ∧
    after (exec (.rxByte 0xAD#8) receivingFull) (fun t => (receivingFull.rx.rxToolong, t.rx.rxToolong)) = some (false, true) ∧
    after (exec (.wrStatus 0x04#32) receiving) (fun t => (receiving.rx.rxActivity, t.rx.rxActivity)) = some (true, false) ∧
    after (exec .tick (sending .hold 4 0#16)) (fun t => (closed.drv.txDone, t.drv.txDone)) = some (false, true) ∧
    after (exec (.rxRelease 0#28) holding) (fun t => (holding.held.frameReady, t.held.frameReady)) = some (true, false) ∧
    after (exec (.txGo 0#28) base) (fun t => (base.host.cmdErr, t.host.cmdErr, base.host.errcause, t.host.errcause))
      = some (false, true, .none, .txNotClosed) ∧
    after (exec (.wrStatus 0x40#32) rejected) (fun t => (rejected.host.cmdErr, t.host.cmdErr)) = some (true, false) := by
  decide

/-- StepRunsTheDecodedOperation. -/
theorem witness_StepRunsTheDecodedOperation :
    (given [.word 0x801C00000002#48] base).port.inputs = .word 0x801C00000002#48 :: [] ∧
    decode (.word 0x801C00000002#48) = .ok (.wrGuard 2#32) := by decide

/-- StepIsRefusedExactlyWithoutAnOperation: an empty queue, an input without an operation, one with. -/
theorem witness_StepIsRefusedExactlyWithoutAnOperation :
    base.port.inputs = [] ∧ decode (.word 0xC00000000000#48) = .error .kindNone ∧
    (given [.word 0xC00000000000#48] base).port.inputs = .word 0xC00000000000#48 :: [] ∧
    decode (.wire 0xAC#8) = .ok .wireStart := by decide

/-- NamedOperationsAlwaysRun: two inputs that name operations. -/
theorem witness_NamedOperationsAlwaysRun : InputsNameOperations (given [encode .tick, .wire 0xAE#8] base) := by
  intro x hx
  rcases List.mem_cons.1 hx with rfl | hx
  · exact ⟨.tick, by decide⟩
  · rcases List.mem_cons.1 hx with rfl | hx
    · exact ⟨.wireEscape, by decide⟩
    · exact absurd hx (by simp)

/-- HostAccessPrecedesTheEventsOfItsCycle: each clause's state, for the frame that is too long both alternatives. -/
theorem witness_HostAccessPrecedesTheEventsOfItsCycle :
    receivingFull.port.inputs = [] ∧
    (receivingFull.rx.rxState = .inFrame ∧ receivingFull.rx.rxAwait = false ∧ receivingFull.rx.rxMatch = true ∧
      receivingFull.cfg.rxDepth ≤ receivingFull.rx.accLen) ∧
    (receivingOverflowed.port.inputs = [] ∧ receivingOverflowed.rx.rxState = .inFrame ∧
      receivingOverflowed.rx.rxAwait = false ∧ receivingOverflowed.rx.rxMatch = true ∧
      receivingOverflowed.rx.rxOvf = true) ∧
    (receivingHolding.port.inputs = [] ∧ receivingHolding.rx.rxState = .inFrame ∧ receivingHolding.rx.rxAwait = false ∧
      receivingHolding.rx.rxMatch = true ∧ receivingHolding.rx.rxOvf = false ∧
      receivingHolding.rx.accLen < receivingHolding.cfg.rxDepth ∧ receivingHolding.held.frameReady = true) ∧
    ((sending .hold 4 0#16).port.inputs = [] ∧ (sending .hold 4 0#16).drv.txEngine = .hold ∧
      (sending .hold 4 0#16).drv.txcnt = 0#16) := by decide

/-- QuiescentBlockIgnoresLineAndTime. -/
theorem witness_QuiescentBlockIgnoresLineAndTime : Quiescent base := by
  refine ⟨by decide, fun x hx => ?_⟩
  exact absurd hx (by simp [base, Ports.fresh])

/-- DecodingAnEncodingGivesTheOperation: the operations whose operands a row bounds, at both ends of their ranges. -/
theorem witness_DecodingAnEncodingGivesTheOperation :
    (Instr.rdRsvd040 0x040#12).wellFormed = true ∧ (Instr.rdRsvd040 0x07C#12).wellFormed = true ∧
    (Instr.wrRsvd200 0x200#12 0#32).wellFormed = true ∧ (Instr.wrRsvd200 0x3FC#12 0xFFFFFFFF#32).wellFormed = true ∧
    (Instr.cmdRsvd8to15 0xF#32).wellFormed = true ∧ (Instr.wireData 0xFF#8).wellFormed = true ∧
    Instr.reset.wellFormed = true := by decide

/-- DecodedWordLiesInItsRow. -/
theorem witness_DecodedWordLiesInItsRow :
    decode (.word 0x43FC00000000#48) = .ok (.rdRsvd200 0x3FC#12) ∧
    decode (.word 0x80000000000F#48) = .ok (.cmdRsvd8to15 0xF#32) := by decide

/-- RowsOfTheOpcodeTableAreDisjoint: a word in the row of the last window. -/
theorem witness_RowsOfTheOpcodeTableAreDisjoint :
    (Instr.rdTxbuf 0#8).row.bits = 48 ∧ (Instr.rdTxbuf 0#8).row.holds 0x7FFCFFFFFFFF#48 = true := by decide

/-- IgnoredBitsDoNotChangeTheOperation, the events that take no data. -/
theorem witness_IgnoredBitsDoNotChangeTheOperation : (0#6 : BitVec 6) ≠ 1#6 ∧ (2#6 : BitVec 6) ≠ 1#6 := by decide

/-- SubwordAndMisalignedAccessesAreRefused: the sizes around 4, the offsets around a word, the last word. -/
theorem witness_SubwordAndMisalignedAccessesAreRefused :
    ({ write := false, addr := 0, size := 2, wdata := 0#32 } : BusAccess).size ≠ 4 ∧
    (0xFFF#12 : Offset).toNat % 4 ≠ 0 ∧ (0x001#12 : Offset).toNat % 4 ≠ 0 ∧ (0xFFC#12 : Offset).toNat % 4 = 0 := by decide

end Sys2Proof.Tests
end

section
/-!
SUPPORT. The invariants of `Inv`, unit by unit (10_state.md R54): what each unit of the state keeps, and how the named
operations on a unit keep it.
-/

namespace Sys2Proof.Machine

/-! ## The invariants of each unit -/

/-- The buffer holds, in its first `n` bytes, a frame that is addressed to the block (R27, R54 item 3). -/
structure AddressedFrame (depth : Nat) (buf : List Byte) (n : Nat) : Prop where
  minLength : 3 ≤ n
  maxLength : n ≤ depth
  first : buf[0]? = some startByte
  last : buf[n - 1]? = some endByte
  address : buf[1]? = some 0x14#8 ∨ buf[1]? = some 0x20#8

/-- The part of `Inv` about the accumulator (R22, R23, R24, R54 items 1 and 2). -/
structure AccumulatorInv (depth : Nat) (a : Accumulator) : Prop where
  size : a.acc.length = depth
  idle : a.rxState = .idle → a.accLen = 0 ∧ a.rxAwait = false ∧ a.rxMatch = false ∧ a.rxOvf = false
  inFrame : a.rxState = .inFrame →
    1 ≤ a.accLen ∧ a.accLen ≤ depth ∧ a.acc[0]? = some startByte ∧
    (a.rxAwait = true → a.accLen = 1 ∧ a.rxMatch = false)
  address : a.rxMatch = true → 2 ≤ a.accLen ∧ (a.acc[1]? = some 0x14#8 ∨ a.acc[1]? = some 0x20#8)
  interior : ∀ b ∈ (a.acc.take a.accLen).drop 1, ¬ isDelimiter b

/-- The part of `Inv` about the held frame (R22, R27, R54 item 3). -/
structure HeldInv (depth : Nat) (h : HeldFrame) : Prop where
  rawSize : h.rxraw.length = depth
  paySize : h.rxpay.length = depth
  none : h.frameReady = false → h.rxlen = 0 ∧ h.paylen = 0 ∧ h.frameTrunc = false
  frame : h.frameReady = true → AddressedFrame depth h.rxraw h.rxlen ∧ h.paylen ≤ h.rxlen - 2
  payload : h.frameReady = true → unstuff (interiorOf h.rxraw h.rxlen) = (h.rxpay.take h.paylen, h.frameTrunc)

/-- The part of `Inv` about the transmit buffer (R22, R28). -/
structure TxFrameInv (depth : Nat) (f : TxFrame) : Prop where
  size : f.txbuf.length = depth
  empty : f.txb = .empty → f.txlen = 0
  opened : f.txb = .opened → 1 ≤ f.txlen ∧ f.txlen ≤ depth - 1 ∧ ∃ p, f.txbuf.take f.txlen = startByte :: stuff p
  closed : f.txb = .closed → 2 ≤ f.txlen ∧ f.txlen ≤ depth ∧ ∃ p, f.txbuf.take f.txlen = encodeFrame p

/-- The part of `Inv` about the driver, next to the transmit buffer it sends (R54 items 4, 5 and 6, R221). -/
structure DriverInv (f : TxFrame) (d : Driver) : Prop where
  closed : d.txEngine ≠ .idle → f.txb = .closed
  bound : d.txptr ≤ f.txlen
  guardPtr : d.txEngine = .guard → d.txptr = 0
  sendPtr : d.txEngine = .send → d.txptr < f.txlen
  drainPtr : d.txEngine = .drain ∨ d.txEngine = .hold → d.txptr = f.txlen
  count : d.txEngine = .idle ∨ d.txEngine = .send ∨ d.txEngine = .drain → d.txcnt = 0#16

/-- The part of `Inv` about the host interface (R35, R54 item 7). -/
structure HostInv (h : HostRegs) : Prop where
  error : h.errcause ≠ .none ↔ h.cmdErr = true
  mask : h.irqen &&& 0x7D#8 = h.irqen

theorem Inv.accumulator {s : State} (h : Inv s) : AccumulatorInv s.cfg.rxDepth s.rx :=
  ⟨h.accSize, h.rxIdle, h.rxInFrame, h.rxAddress, h.rxInterior⟩

theorem Inv.heldUnit {s : State} (h : Inv s) : HeldInv s.cfg.rxDepth s.held where
  rawSize := h.rxrawSize
  paySize := h.rxpaySize
  none := h.heldNone
  frame := fun hr =>
    have ⟨hmin, hmax, hfirst, hlast, haddr, hpay⟩ := h.heldFrame hr
    ⟨⟨hmin, hmax, hfirst, hlast, haddr⟩, hpay⟩
  payload := h.heldPayload

theorem Inv.txFrame {s : State} (h : Inv s) : TxFrameInv s.cfg.txDepth s.tx :=
  ⟨h.txbufSize, h.txEmpty, h.txOpened, h.txClosed⟩

theorem Inv.driver {s : State} (h : Inv s) : DriverInv s.tx s.drv :=
  ⟨h.engineClosed, h.txptrBound, h.guardPtr, h.sendPtr, h.drainPtr, h.txcntZero⟩

theorem Inv.hostUnit {s : State} (h : Inv s) : HostInv s.host := ⟨h.errorRecorded, h.irqenMask⟩

/-- TXEN is asserted exactly in SEND, DRAIN and HOLD (R31). -/
theorem State.txen_iff (s : State) :
    s.txen = true ↔ s.drv.txEngine = .send ∨ s.drv.txEngine = .drain ∨ s.drv.txEngine = .hold := by
  unfold State.txen
  cases s.drv.txEngine <;> simp [TxEngine.txen]

/-- `Inv` holds as soon as every unit keeps its part: R54 item 8 is true of every state, and the ports are free. -/
theorem Inv.of_units {s : State} (params : s.cfg.Legal) (acc : AccumulatorInv s.cfg.rxDepth s.rx)
    (held : HeldInv s.cfg.rxDepth s.held) (tx : TxFrameInv s.cfg.txDepth s.tx) (drv : DriverInv s.tx s.drv)
    (host : HostInv s.host) : Inv s where
  params := params
  accSize := acc.size
  rxrawSize := held.rawSize
  rxpaySize := held.paySize
  txbufSize := tx.size
  rxIdle := acc.idle
  rxInFrame := acc.inFrame
  rxAddress := acc.address
  rxInterior := acc.interior
  heldNone := held.none
  heldFrame := fun hr =>
    have ⟨⟨hmin, hmax, hfirst, hlast, haddr⟩, hpay⟩ := held.frame hr
    ⟨hmin, hmax, hfirst, hlast, haddr, hpay⟩
  heldPayload := held.payload
  txEmpty := tx.empty
  txOpened := tx.opened
  txClosed := tx.closed
  engineClosed := drv.closed
  txptrBound := drv.bound
  guardPtr := drv.guardPtr
  sendPtr := drv.sendPtr
  drainPtr := drv.drainPtr
  txcntZero := drv.count
  errorRecorded := host.error
  txenPhase := s.txen_iff
  irqenMask := host.mask

theorem Inv.rxDepth_min {s : State} (h : Inv s) : 3 ≤ s.cfg.rxDepth :=
  have ⟨hrx, _⟩ := h.params
  hrx

theorem Inv.txDepth_min {s : State} (h : Inv s) : 4 ≤ s.cfg.txDepth :=
  have ⟨_, _, htx, _⟩ := h.params
  htx

/-- The ports are the model's own: `Inv` says nothing of them. -/
theorem Inv.withPort {s : State} (h : Inv s) (port : Ports) : Inv { s with port := port } :=
  .of_units h.params h.accumulator h.heldUnit h.txFrame h.driver h.hostUnit

/-- The CRC may have any value. -/
theorem Inv.withCrc {s : State} (h : Inv s) (crc : Byte) : Inv { s with crc := crc } :=
  .of_units h.params h.accumulator h.heldUnit h.txFrame h.driver h.hostUnit

theorem Inv.withAccumulator {s : State} (h : Inv s) {a : Accumulator} (ha : AccumulatorInv s.cfg.rxDepth a) :
    Inv { s with rx := a } :=
  .of_units h.params ha h.heldUnit h.txFrame h.driver h.hostUnit

theorem Inv.withHeld {s : State} (h : Inv s) {f : HeldFrame} (hf : HeldInv s.cfg.rxDepth f) :
    Inv { s with held := f } :=
  .of_units h.params h.accumulator hf h.txFrame h.driver h.hostUnit

theorem Inv.withDriver {s : State} (h : Inv s) {d : Driver} (hd : DriverInv s.tx d) : Inv { s with drv := d } :=
  .of_units h.params h.accumulator h.heldUnit h.txFrame hd h.hostUnit

theorem Inv.withHost {s : State} (h : Inv s) {r : HostRegs} (hr : HostInv r) : Inv { s with host := r } :=
  .of_units h.params h.accumulator h.heldUnit h.txFrame h.driver hr

/-- A rejection records a cause, so it keeps R54 item 7 (R302). -/
theorem Inv.reject {s : State} (h : Inv s) {c : Cause} (hc : c ≠ .none) : Inv (s.reject c) :=
  h.withHost ⟨by simp [hc], h.irqenMask⟩

/-- A write that needs an open frame is judged only where it is accepted (R303). -/
theorem Inv.withOpenFrame {s u : State} (h : Inv s)
    (hu : s.drv.txEngine = .idle → s.tx.txb = .opened → Inv u) : Inv (s.withOpenFrame u) := by
  rcases s.withOpenFrame_cases u with ⟨-, e⟩ | ⟨-, -, e⟩ | ⟨hi, ho, e⟩ <;> rw [e]
  · exact h.reject (by decide)
  · exact h.reject (by decide)
  · exact hu hi ho

/-! ## RESET -/

/-- Every unit is idle and empty after RESET, and the buffers have their sizes (R340). -/
theorem inv_afterReset {cfg : Config} (port : Ports) (h : cfg.Legal) : Inv (State.afterReset cfg port) :=
  .of_units h
    ⟨length_freeBytes .., fun _ => ⟨rfl, rfl, rfl, rfl⟩, nofun, nofun, by simp [State.afterReset]⟩
    ⟨length_freeBytes .., length_freeBytes .., fun _ => ⟨rfl, rfl, rfl⟩, nofun, nofun⟩
    ⟨length_freeBytes .., fun _ => rfl, nofun, nofun⟩
    ⟨fun hne => absurd rfl hne, Nat.le_refl 0, nofun, nofun, fun _ => rfl, fun _ => rfl⟩
    ⟨by simp [State.afterReset], by simp [State.afterReset]⟩

/-! ## The accumulator -/

section Accumulator
variable {depth : Nat} {a : Accumulator}

theorem AccumulatorInv.active (h : AccumulatorInv depth a) : AccumulatorInv depth a.active :=
  ⟨h.size, h.idle, h.inFrame, h.address, h.interior⟩

/-- A fresh frame has only its START (R186, R187). -/
theorem AccumulatorInv.startFrame (h : AccumulatorInv depth a) (hd : 1 ≤ depth) :
    AccumulatorInv depth a.startFrame where
  size := by simp [h.size]
  idle := by simp
  inFrame := by
    have : 0 < a.acc.length := by rw [h.size]; exact hd
    simpa [this] using hd
  address := by simp
  interior := by
    have : ((a.acc.set 0 startByte).take 1).drop 1 = [] := List.drop_of_length_le (by simp)
    simp [this]

theorem Accumulator.length_acc_advance (b : Byte) : (a.advance depth b).acc.length = a.acc.length := by
  rw [Accumulator.advance_acc]; split <;> simp

/-- The accumulator that goes back to IDLE has nothing left to keep but its size. -/
theorem AccumulatorInv.close (h : a.acc.length = depth) : AccumulatorInv depth a.close :=
  ⟨h, by simp, by simp, by simp, by simp⟩

/-- A byte in a frame leaves the bytes before it, START first. -/
theorem Accumulator.getElem?_advance (b : Byte) {i : Nat} (hi : i < a.accLen) :
    (a.advance depth b).acc[i]? = a.acc[i]? := by
  rw [Accumulator.advance_acc]
  split
  · exact List.getElem?_set_ne (by omega)
  · rfl

/-- Address capture takes the raw byte after START (R184), and no later byte changes it. -/
theorem AccumulatorInv.address_advance (h : AccumulatorInv depth a) (hd : 3 ≤ depth) (hf : a.rxState = .inFrame)
    (b : Byte) (hm : (a.advance depth b).rxMatch = true) :
    2 ≤ (a.advance depth b).accLen ∧
      ((a.advance depth b).acc[1]? = some 0x14#8 ∨ (a.advance depth b).acc[1]? = some 0x20#8) := by
  obtain ⟨-, -, -, hawait⟩ := h.inFrame hf
  rw [Accumulator.advance_rxMatch] at hm
  split at hm
  · next hw =>
    obtain ⟨hlen, -⟩ := hawait hw
    have hsize := h.size
    rcases (addrMatch_iff b).1 hm with rfl | rfl <;> simp [hlen, show 1 < depth by omega, hsize]
  · obtain ⟨hlen, haddr⟩ := h.address hm
    rw [Accumulator.getElem?_advance b (by omega)]
    refine ⟨?_, haddr⟩
    rw [Accumulator.advance_accLen]; split <;> omega

/-- A byte in a frame that is no delimiter keeps the invariants, appended or dropped (R183, R184). -/
theorem AccumulatorInv.advance (h : AccumulatorInv depth a) (hd : 3 ≤ depth) (hf : a.rxState = .inFrame)
    {b : Byte} (hb : ¬ isDelimiter b) : AccumulatorInv depth (a.advance depth b) where
  size := by rw [Accumulator.length_acc_advance, h.size]
  idle := by simp [hf]
  inFrame := by
    obtain ⟨hmin, hmax, hfirst, -⟩ := h.inFrame hf
    intro _
    rw [Accumulator.getElem?_advance b (by omega), Accumulator.advance_accLen]
    refine ⟨?_, ?_, hfirst, by simp⟩ <;> split <;> omega
  address := h.address_advance hd hf b
  interior := by
    have hmin : 1 ≤ a.accLen := (h.inFrame hf).1
    intro c hc
    rw [Accumulator.advance_acc, Accumulator.advance_accLen] at hc
    split at hc
    · next hlt =>
      have hsize := h.size
      rw [take_succ_set _ _ _ (by omega), List.drop_append_of_le_length (by simp; omega), List.mem_append,
        List.mem_singleton] at hc
      rcases hc with hc | rfl
      · exact h.interior c hc
      · exact hb
    · exact h.interior c hc

/-- When an END closes a frame that is addressed to the block and not too long, the accumulator holds a whole addressed
frame (R185). -/
theorem AccumulatorInv.addressedFrame (h : AccumulatorInv depth a) (hd : 3 ≤ depth) (hf : a.rxState = .inFrame)
    (hm : (a.advance depth endByte).rxMatch = true) (ho : (a.advance depth endByte).rxOvf = false) :
    AddressedFrame depth (a.advance depth endByte).acc (a.advance depth endByte).accLen := by
  obtain ⟨hmin, -, hfirst, -⟩ := h.inFrame hf
  have hlt : a.accLen < depth := by
    by_contra hge
    simp [hge] at ho
  have hmatch : a.rxMatch = true := by
    rw [Accumulator.advance_rxMatch] at hm
    split at hm
    · simp at hm
    · exact hm
  obtain ⟨hlen, -⟩ := h.address hmatch
  have hnew : (a.advance depth endByte).accLen = a.accLen + 1 := by simp [hlt]
  refine ⟨by omega, by omega, ?_, ?_, (h.address_advance hd hf _ hm).2⟩
  · rw [Accumulator.getElem?_advance _ (by omega), hfirst]
  · have hsize := h.size
    simp [hlt, hsize]

end Accumulator

/-! ## The held frame -/

section Held
variable {depth n : Nat} {buf buf' : List Byte} {f : HeldFrame}

/-- Buffers with the same first `n` bytes have the same bytes at the indices below `n`. -/
theorem getElem?_eq_of_take_eq (h : buf.take n = buf'.take n) {i : Nat} (hi : i < n) : buf[i]? = buf'[i]? := by
  rw [← List.getElem?_take_of_lt hi, h, List.getElem?_take_of_lt hi]

/-- A frame is in its first `n` bytes. -/
theorem AddressedFrame.of_take_eq (hf : AddressedFrame depth buf n) (h : buf.take n = buf'.take n) :
    AddressedFrame depth buf' n := by
  have hmin := hf.minLength
  have hget {i : Nat} (hi : i < n) : buf'[i]? = buf[i]? := (getElem?_eq_of_take_eq h hi).symm
  refine ⟨hmin, hf.maxLength, ?_, ?_, ?_⟩
  · rw [hget (by omega), hf.first]
  · rw [hget (by omega), hf.last]
  · rw [hget (by omega)]; exact hf.address

theorem interiorOf_eq_of_take_eq (h : buf.take n = buf'.take n) : interiorOf buf n = interiorOf buf' n := by
  have hshort : buf.take (n - 1) = buf'.take (n - 1) := by
    simpa [List.take_take, Nat.min_eq_left (Nat.sub_le n 1)] using congrArg (List.take (n - 1)) h
  rw [interiorOf, hshort, interiorOf]

theorem length_interiorOf_le (buf : List Byte) (n : Nat) : (interiorOf buf n).length ≤ n - 2 := by
  simp [interiorOf]; omega

/-- A delivered frame is the accumulated one, with the `decode` of its interior as payload (R27, R185). -/
theorem HeldInv.deliver (h : HeldInv depth f) (hsize : buf.length = depth) (hf : AddressedFrame depth buf n) :
    HeldInv depth (f.deliver buf n) := by
  have hmin := hf.minLength
  have hmax := hf.maxLength
  have hraw := h.rawSize
  have hpay := h.paySize
  have hcopy : buf.take n = (writeAt f.rxraw 0 (buf.take n)).take n := by
    have hlen : (buf.take n).length = n := by simp; omega
    simpa [hlen] using (take_writeAt (buf.take n) f.rxraw 0 (by omega)).symm
  have hpaylen : (unstuff (interiorOf buf n)).1.length ≤ n - 2 :=
    (length_unstuff_le _).trans (length_interiorOf_le buf n)
  exact {
    rawSize := by simp [HeldFrame.deliver, hraw]
    paySize := by simp [HeldFrame.deliver, hpay]
    none := nofun
    frame := fun _ => ⟨hf.of_take_eq hcopy, hpaylen⟩
    payload := fun _ => by
      have htake := take_writeAt (unstuff (interiorOf buf n)).1 f.rxpay 0 (by omega)
      simp only [Nat.zero_add, List.take_zero, List.nil_append] at htake
      simp only [HeldFrame.deliver, ← interiorOf_eq_of_take_eq hcopy, htake] }

/-- RX_RELEASE holds no frame (R190). -/
theorem HeldInv.release (h : HeldInv depth f) :
    HeldInv depth { f with frameReady := false, frameTrunc := false, rxlen := 0, paylen := 0 } :=
  ⟨h.rawSize, h.paySize, fun _ => ⟨rfl, rfl, rfl⟩, nofun, nofun⟩

/-- RX_OVERRUN is no part of the frame that is held (R26, R27). -/
theorem HeldInv.withOverrun (h : HeldInv depth f) (v : Bool) : HeldInv depth { f with rxOverrun := v } :=
  ⟨h.rawSize, h.paySize, h.none, h.frame, h.payload⟩

end Held

/-- A received byte keeps the invariants (R182). -/
theorem Inv.rxByte {s : State} (h : Inv s) (b : Byte) : Inv (s.rxByte b) := by
  have hd := h.rxDepth_min
  have ha := h.accumulator
  have hsize : (s.rx.advance s.cfg.rxDepth endByte).acc.length = s.cfg.rxDepth := by
    rw [Accumulator.length_acc_advance, ha.size]
  have hclose := AccumulatorInv.close hsize
  rcases s.rxByte_cases b with ⟨-, e⟩ | ⟨-, -, e⟩ | ⟨hf, hs, he, e⟩ | ⟨hf, -, e⟩ <;> rw [e]
  · exact h.withAccumulator (ha.active.startFrame (by omega))
  · exact h.withAccumulator ha.active
  · exact h.withAccumulator (ha.advance hd hf (not_or.2 ⟨hs, he⟩))
  · rcases State.endFrame_cases { s with rx := s.rx.advance s.cfg.rxDepth endByte } with
      ⟨-, e⟩ | ⟨-, -, e⟩ | ⟨-, -, -, e⟩ | ⟨hm, ho, -, e⟩ <;> rw [e]
    · exact h.withAccumulator hclose
    · exact h.withAccumulator ⟨hclose.size, hclose.idle, hclose.inFrame, hclose.address, hclose.interior⟩
    · exact (h.withAccumulator hclose).withHeld (h.heldUnit.withOverrun true)
    · exact (h.withAccumulator hclose).withHeld
        (h.heldUnit.deliver hsize (ha.addressedFrame hd hf hm ho))

/-! ## The transmit buffer -/

section Transmit
variable {depth : Nat} {f : TxFrame}

/-- A fresh frame has only its START (R140). -/
theorem TxFrameInv.start (h : TxFrameInv depth f) (hd : 4 ≤ depth) :
    TxFrameInv depth { txb := .opened, txbuf := f.txbuf.set 0 startByte, txlen := 1 } where
  size := by simp [h.size]
  empty := nofun
  opened := fun _ => ⟨Nat.le_refl 1, by dsimp only; omega, [], take_succ_set f.txbuf 0 startByte (by rw [h.size]; omega)⟩
  closed := nofun

/-- The bytes written so far, and those put behind them. -/
theorem TxFrameInv.take_put (h : TxFrameInv depth f) (txb : TxbState) (bytes : List Byte)
    (hfit : f.txlen + bytes.length ≤ depth) :
    (f.put txb bytes).txbuf.take (f.put txb bytes).txlen = f.txbuf.take f.txlen ++ bytes :=
  take_writeAt bytes f.txbuf f.txlen (by rw [h.size]; exact hfit)

/-- A payload byte that leaves room for the END keeps the frame open (R141). -/
theorem TxFrameInv.putByte (h : TxFrameInv depth f) (ho : f.txb = .opened) (b : Byte)
    (hfit : f.txlen + (stuffByte b).length ≤ depth - 1) : TxFrameInv depth (f.put .opened (stuffByte b)) where
  size := by simp [h.size]
  empty := nofun
  opened := fun _ => by
    obtain ⟨hmin, -, p, hp⟩ := h.opened ho
    refine ⟨by simp; omega, hfit, p ++ [b], ?_⟩
    rw [h.take_put .opened (stuffByte b) (by omega), hp]
    simp
  closed := nofun

/-- The stuffed bytes of a trailer and an END close the frame of the payload with the trailer (R142, R143). -/
theorem TxFrameInv.putClose (h : TxFrameInv depth f) (ho : f.txb = .opened) (trailer : List Byte)
    (hfit : f.txlen + (stuff trailer).length + 1 ≤ depth) :
    TxFrameInv depth (f.put .closed (stuff trailer ++ [endByte])) where
  size := by simp [h.size]
  empty := nofun
  opened := nofun
  closed := fun _ => by
    obtain ⟨hmin, -, p, hp⟩ := h.opened ho
    refine ⟨by simp; omega, by simp; omega, p ++ trailer, ?_⟩
    rw [h.take_put .closed (stuff trailer ++ [endByte]) (by simp; omega), hp]
    simp [encodeFrame]

end Transmit

/-! ## The driver -/

section Driver
variable {f : TxFrame} {d : Driver}

/-- While the driver is IDLE the transmit buffer may change, as long as it does not get shorter than `txptr`. -/
theorem DriverInv.of_idle (h : DriverInv f d) (hi : d.txEngine = .idle) {f' : TxFrame} (hlen : d.txptr ≤ f'.txlen) :
    DriverInv f' d :=
  ⟨by simp [hi], hlen, by simp [hi], by simp [hi], by simp [hi], h.count⟩

/-- GUARD, HOLD and TX_DONE are free (R44, R45, R33). -/
theorem DriverInv.withSettings (h : DriverInv f d) (guard hold : BitVec 16) (done : Bool) :
    DriverInv f { d with guard := guard, hold := hold, txDone := done } :=
  ⟨h.closed, h.bound, h.guardPtr, h.sendPtr, h.drainPtr, h.count⟩

/-- A TICK: the guard ends at the first byte of a closed frame, and a wait ends only when its count is 0 (R222 to R224). -/
theorem DriverInv.tick (h : DriverInv f d) (hlen : f.txb = .closed → 2 ≤ f.txlen) : DriverInv f d.tick := by
  rcases d.tick_cases with ⟨hg, hc, e⟩ | ⟨hh, hc, e⟩ | ⟨hw, -, e⟩ | ⟨-, e⟩ <;> rw [e]
  · have hclosed := h.closed (by simp [hg])
    have hptr := h.guardPtr hg
    have := hlen hclosed
    exact ⟨fun _ => hclosed, h.bound, by simp, fun _ => by dsimp only; omega, by simp, fun _ => hc⟩
  · exact ⟨by simp, h.bound, by simp, by simp, by simp, fun _ => hc⟩
  · exact ⟨h.closed, h.bound, h.guardPtr, h.sendPtr, h.drainPtr, by rcases hw with hw | hw <;> simp [hw]⟩
  · exact h

/-- LINE_ACCEPT: the offset stays below the length in SEND and reaches it with DRAIN (R225). -/
theorem DriverInv.accept (h : DriverInv f d) (hs : d.txEngine = .send) :
    DriverInv f { d with txptr := d.txptr + 1, txEngine := if d.txptr + 1 = f.txlen then .drain else .send } := by
  have hclosed := h.closed (by simp [hs])
  have hptr := h.sendPtr hs
  have hcount := h.count (.inr (.inl hs))
  split
  · next hlast => exact ⟨fun _ => hclosed, hptr, by simp, by simp, fun _ => hlast, fun _ => hcount⟩
  · next hmore =>
    exact ⟨fun _ => hclosed, hptr, by simp, fun _ => Nat.lt_of_le_of_ne hptr hmore, by simp, fun _ => hcount⟩

/-- LINE_IDLE: the hold wait begins with the whole frame sent (R226). -/
theorem DriverInv.beginHold (h : DriverInv f d) (hd : d.txEngine = .drain) (n : BitVec 16) :
    DriverInv f { d with txEngine := .hold, txcnt := n } :=
  ⟨fun _ => h.closed (by simp [hd]), h.bound, by simp, by simp, fun _ => h.drainPtr (.inl hd), by simp⟩

/-- TX_GO: the guard wait begins at the first byte of a closed frame (R221). -/
theorem DriverInv.go (hc : f.txb = .closed) (n : BitVec 16) :
    DriverInv f { d with txEngine := .guard, txcnt := n, txptr := 0 } :=
  ⟨fun _ => hc, Nat.zero_le _, by simp, by simp, by simp, by simp⟩

end Driver

/-! ## The operations of the host -/

/-- TX_OPEN (R140). -/
theorem Inv.txOpen {s : State} (h : Inv s) (hi : s.drv.txEngine = .idle) :
    Inv { s with
      tx := { txb := .opened, txbuf := s.tx.txbuf.set 0 startByte, txlen := 1 },
      drv := { s.drv with txptr := 0 },
      crc := 0x00#8 } :=
  .of_units h.params h.accumulator h.heldUnit (h.txFrame.start h.txDepth_min)
    ⟨by simp [hi], Nat.zero_le 1, by simp, by simp [hi], by simp [hi], fun _ => h.driver.count (.inl hi)⟩ h.hostUnit

/-- An accepted write behind an open frame changes the transmit buffer, and the driver is IDLE. -/
theorem Inv.put {s : State} (h : Inv s) (hi : s.drv.txEngine = .idle) {txb : TxbState} {bytes : List Byte}
    (htx : TxFrameInv s.cfg.txDepth (s.tx.put txb bytes)) : Inv { s with tx := s.tx.put txb bytes } :=
  .of_units h.params h.accumulator h.heldUnit htx
    (h.driver.of_idle hi (h.driver.bound.trans (Nat.le_add_right _ _))) h.hostUnit

/-- WR TXDATA (R141). -/
theorem Inv.wrTxdata {s : State} (h : Inv s) (b crc : Byte) :
    Inv (s.withOpenFrame
      (if s.tx.txlen + (stuffByte b).length > s.cfg.txDepth - 1 then s.reject .txFull
      else { s with tx := s.tx.put .opened (stuffByte b), crc := crc })) := by
  refine h.withOpenFrame fun hi ho => ?_
  split
  · exact h.reject (by decide)
  · exact (h.put hi (h.txFrame.putByte ho b (by omega))).withCrc crc

/-- TX_CLOSE always has room, because an open frame keeps one byte free (R142). -/
theorem Inv.txClose {s : State} (h : Inv s) :
    Inv (s.withOpenFrame { s with tx := s.tx.put .closed [endByte] }) := by
  refine h.withOpenFrame fun hi ho => ?_
  obtain ⟨-, hmax, -⟩ := h.txOpened ho
  have hdepth := h.txDepth_min
  exact h.put hi (h.txFrame.putClose ho [] (by simp; omega))

/-- TX_CLOSE_CRC (R143). -/
theorem Inv.txCloseCrc {s : State} (h : Inv s) :
    Inv (s.withOpenFrame
      (if s.tx.txlen + (stuffByte s.crc).length + 1 > s.cfg.txDepth then s.reject .txFull
      else { s with tx := s.tx.put .closed (stuffByte s.crc ++ [endByte]) })) := by
  refine h.withOpenFrame fun hi ho => ?_
  split
  · exact h.reject (by decide)
  · have hstuff : stuff [s.crc] = stuffByte s.crc := by simp
    have hclose := h.txFrame.putClose ho [s.crc] (by rw [hstuff]; omega)
    exact h.put hi (hstuff ▸ hclose)

/-- The host's clear of a rejection keeps R54 item 7 (R310). -/
theorem HostInv.clearError {r : HostRegs} (h : HostInv r) : HostInv r.clearError :=
  ⟨by simp [HostRegs.clearError], h.mask⟩

/-- WR STATUS: of the fields of `Inv` it can change CMD_ERR and ERRCAUSE, which it clears together (R263). -/
theorem Inv.wrStatus {s : State} (h : Inv s) (act long overrun done clear : Bool) :
    Inv { s with
      rx := { s.rx with rxActivity := act, rxToolong := long },
      held := { s.held with rxOverrun := overrun },
      drv := { s.drv with txDone := done },
      host := if clear then s.host.clearError else s.host } := by
  have ha := h.accumulator
  refine .of_units h.params ⟨ha.size, ha.idle, ha.inFrame, ha.address, ha.interior⟩ (h.heldUnit.withOverrun overrun)
    h.txFrame (h.driver.withSettings s.drv.guard s.drv.hold done) ?_
  cases clear
  · exact h.hostUnit
  · exact h.hostUnit.clearError

/-- The enable mask that is written has no bit outside 0x7D (R97, R264). -/
theorem wdataEnable_mask (wdata : Word) : wdataEnable wdata &&& 0x7D#8 = wdataEnable wdata := by
  have hmask : (0x7D#8 : Byte) = (0x7D#32 : Word).extractLsb' 0 8 := by decide
  rw [wdataEnable, hmask, ← BitVec.extractLsb'_and, BitVec.and_assoc, BitVec.and_self]

/-! ## Every operation, every step -/

/-- Every operation keeps the invariants. -/
theorem exec_keeps_inv (i : Instr) (s : State) (h : Inv s) : ∃ t, exec i s = .next t ∧ Inv t := by
  cases i
  case reset => exact ⟨_, rfl, inv_afterReset s.port h.params⟩
  case rxByte b => exact ⟨_, rfl, h.rxByte b⟩
  case wireStart => exact ⟨_, rfl, h.rxByte startByte⟩
  case wireEnd => exact ⟨_, rfl, h.rxByte endByte⟩
  case wireEscape => exact ⟨_, rfl, h.rxByte escapeByte⟩
  case wireData b => exact ⟨_, rfl, h.rxByte b⟩
  case rxRelease => exact ⟨_, rfl, h.withHeld h.heldUnit.release⟩
  case tick => exact ⟨_, rfl, h.withDriver (h.driver.tick fun hc => (h.txClosed hc).1)⟩
  case lineAccept =>
    refine ⟨_, rfl, ?_⟩
    split
    · next hs => exact (h.withDriver (h.driver.accept hs)).withPort _
    · exact h
  case lineIdle =>
    refine ⟨_, rfl, ?_⟩
    split
    · next hd => exact h.withDriver (h.driver.beginHold hd _)
    · exact h
  case txGo =>
    refine ⟨_, rfl, ?_⟩
    split
    · exact h.reject (by decide)
    · split
      · exact h.reject (by decide)
      · next hc => exact h.withDriver (.go (not_not.1 hc) _)
  case txOpen =>
    refine ⟨_, rfl, ?_⟩
    split
    · exact h.reject (by decide)
    · next hi => exact h.txOpen (not_not.1 hi)
  case wrTxdata w => exact ⟨_, rfl, h.wrTxdata (wdataByte w) _⟩
  case txClose => exact ⟨_, rfl, h.txClose⟩
  case txCloseCrc => exact ⟨_, rfl, h.txCloseCrc⟩
  case cmdRsvd6to7 | cmdRsvd8to15 => exact ⟨_, rfl, h.reject (by decide)⟩
  case wrStatus w => exact ⟨_, rfl, h.wrStatus _ _ _ _ (w.getLsbD 6)⟩
  case wrIrqen w => exact ⟨_, rfl, h.withHost ⟨h.errorRecorded, wdataEnable_mask w⟩⟩
  case wrCrc | wrCrcdata => exact ⟨_, rfl, h.withCrc _⟩
  case wrGuard w => exact ⟨_, rfl, h.withDriver (h.driver.withSettings (wdataDelay w) s.drv.hold s.drv.txDone)⟩
  case wrHold w => exact ⟨_, rfl, h.withDriver (h.driver.withSettings s.drv.guard (wdataDelay w) s.drv.txDone)⟩
  -- the writes that are ignored leave the state as it is
  case nop | wrErrcause | wrRxlen | wrPaylen | wrTxlen | wrState | wrAcclen | wrTxptr | wrTxcnt | wrRsvd200 | wrRsvd100 |
      wrRsvd080 | wrRsvd040 | wrRxraw | wrRxpay | wrTxbuf => exact ⟨s, rfl, h⟩
  -- the reads change the log of the host port alone
  all_goals exact ⟨_, rfl, h.withPort _⟩

/-- A step begins its operation, which touches the ports alone, and runs it. -/
theorem step_keeps_inv {s t : State} (h : Inv s) (hs : step s = .next t) : Inv t := by
  obtain ⟨_, rest, i, -, -, he⟩ := step_cases hs
  obtain ⟨u, hu, hinv⟩ := exec_keeps_inv i (s.beginOp i rest) (h.withPort _)
  obtain rfl : u = t := Host.Outcome.next.inj (hu.symm.trans he)
  exact hinv

theorem steps_keeps_inv {n : Nat} {s t : State} (h : Inv s) (hs : steps n s = .next t) : Inv t := by
  induction n generalizing s with
  | zero => exact Host.Outcome.next.inj hs ▸ h
  | succ n ih =>
    rw [steps_succ] at hs
    cases hstep : step s with
    | next u => exact ih (step_keeps_inv h hstep) (by simpa only [hstep] using hs)
    | fault f => simp [hstep] at hs
    | refused r => simp [hstep] at hs

/-! ## The outputs of the driver (R31, R36) -/

/-- TXEN is bit 7 of STATUS (R38). -/
theorem State.statusValue_bit7 (s : State) : s.statusValue.getLsbD 7 = s.txen := by
  rw [State.statusValue, zextByte, BitVec.getLsbD_setWidth, State.statusByte]
  iterate 7 rw [BitVec.getLsbD_append (m := 1)]
  simp

theorem State.txValid_iff (s : State) : s.txValid = true ↔ s.drv.txEngine = .send := by simp [State.txValid]

/-- The byte offered in SEND is the one at `txptr`. -/
theorem State.txData_of_txValid {s : State} (hv : s.txValid = true) {c : Byte} (hc : s.tx.txbuf[s.drv.txptr]? = some c) :
    s.txData = c :=
  (if_pos hv).trans (byteAt_of_getElem? hc _)

/-- What any operation can do to the bytes given to the line transmitter: leave them, or, for LINE_ACCEPT of an offer, append
the byte offered. -/
theorem exec_lineLog_cases (i : Instr) (s : State) :
    ∃ t, exec i s = .next t ∧
      (t.port.lineLog = s.port.lineLog ∨
        (i = .lineAccept ∧ s.txValid = true ∧ t.port.lineLog = s.port.lineLog ++ [s.txData])) := by
  cases i
  case lineAccept =>
    refine ⟨_, rfl, ?_⟩
    split
    · next hs => exact .inr ⟨rfl, s.txValid_iff.2 hs, rfl⟩
    · exact .inl rfl
  case rxByte | wireStart | wireEnd | wireEscape | wireData => exact ⟨_, rfl, .inl (by rw [State.rxByte_port])⟩
  case wrTxdata | txCloseCrc =>
    refine ⟨_, rfl, .inl ?_⟩
    rw [State.withOpenFrame_port]
    split <;> rfl
  case txClose => exact ⟨_, rfl, .inl (by rw [State.withOpenFrame_port]; rfl)⟩
  case txOpen | lineIdle => exact ⟨_, rfl, .inl (by split <;> rfl)⟩
  case txGo =>
    refine ⟨_, rfl, .inl ?_⟩
    split
    · rfl
    · split <;> rfl
  all_goals exact ⟨_, rfl, .inl rfl⟩

end Sys2Proof.Machine

namespace Sys2Proof.Proofs

open Sys2Proof Sys2Proof.Machine

/-- Settles O3: RESET leaves every unit idle and empty, and the default parameters are legal. -/
theorem invariantsHoldAfterReset : Obligations.InvariantsHoldAfterReset :=
  ⟨inv_afterReset Ports.fresh (by decide), fun _ port h => inv_afterReset port h⟩

/-- Settles O4, from the invariants of the units, which every operation keeps. -/
theorem everyStepKeepsTheInvariants : Obligations.EveryStepKeepsTheInvariants :=
  fun _ _ h hs => step_keeps_inv h hs

/-- Settles O5, by induction on the number of steps from RESET. -/
theorem reachableStatesSatisfyTheInvariants : Obligations.ReachableStatesSatisfyTheInvariants :=
  fun _ port _ _ hlegal hs => steps_keeps_inv (inv_afterReset port hlegal) hs

/-- Settles O47, by the phases for the outputs and by the operations for the bytes that leave. -/
theorem txenAndTheOfferFollowThePhase : Obligations.TxenAndTheOfferFollowThePhase := by
  refine ⟨fun s => ⟨s.txen_iff, s.statusValue_bit7, s.txValid_iff, fun hv _ hc => State.txData_of_txValid hv hc,
    _, rfl, rfl⟩, fun i s t he => ?_⟩
  obtain ⟨u, hu, hlog⟩ := exec_lineLog_cases i s
  obtain rfl : u = t := Host.Outcome.next.inj (hu.symm.trans he)
  exact hlog

end Sys2Proof.Proofs
end

section
/-!
SUPPORT. What every operation leaves unchanged while a frame is held (20_memory.md R76) and while a sequence runs (R77).
-/

namespace Sys2Proof.Machine

/-! ## The held frame is a snapshot (R76) -/

/-- What a received byte can do to the held frame: nothing, or, with an END, an overrun or a delivery. -/
theorem State.rxByte_held_cases (s : State) (b : Byte) :
    (s.rxByte b).held = s.held ∨
    (b = endByte ∧ s.held.frameReady = true ∧ (s.rxByte b).held = { s.held with rxOverrun := true }) ∨
    (b = endByte ∧ s.held.frameReady = false ∧ ∃ acc n, (s.rxByte b).held = s.held.deliver acc n) := by
  rcases s.rxByte_cases b with ⟨-, e⟩ | ⟨-, -, e⟩ | ⟨-, -, -, e⟩ | ⟨-, hb, e⟩ <;> rw [e]
  · exact .inl rfl
  · exact .inl rfl
  · exact .inl rfl
  · rcases State.endFrame_cases { s with rx := s.rx.advance s.cfg.rxDepth endByte } with
      ⟨-, e⟩ | ⟨-, -, e⟩ | ⟨-, -, hready, e⟩ | ⟨-, -, hready, e⟩ <;> rw [e]
    · exact .inl rfl
    · exact .inl rfl
    · exact .inr (.inl ⟨hb, hready, rfl⟩)
    · exact .inr (.inr ⟨hb, hready, _, _, rfl⟩)

/-- While a frame is held a received byte can change RX_OVERRUN of it alone (R185). -/
theorem State.rxByte_held_of_frameReady {s : State} (h : s.held.frameReady = true) (b : Byte) :
    ∃ o, (s.rxByte b).held = { s.held with rxOverrun := o } := by
  rcases s.rxByte_held_cases b with e | ⟨-, -, e⟩ | ⟨-, hnone, -⟩
  · exact ⟨s.held.rxOverrun, e⟩
  · exact ⟨true, e⟩
  · exact absurd (h.symm.trans hnone) (by decide)

/-- While a frame is held every operation but RX_RELEASE and RESET can change RX_OVERRUN of it alone (R76). -/
theorem exec_held_of_frameReady {i : Instr} {s : State} (h : s.held.frameReady = true) (hreset : i ≠ .reset)
    (hrelease : ∀ arg, i ≠ .rxRelease arg) :
    ∃ t o, exec i s = .next t ∧ t.held = { s.held with rxOverrun := o } := by
  cases i
  case reset => exact absurd rfl hreset
  case rxRelease arg => exact absurd rfl (hrelease arg)
  case rxByte | wireStart | wireEnd | wireEscape | wireData =>
    obtain ⟨o, e⟩ := State.rxByte_held_of_frameReady h _
    exact ⟨_, o, rfl, e⟩
  case wrStatus => exact ⟨_, _, rfl, rfl⟩
  case wrTxdata | txCloseCrc =>
    refine ⟨_, s.held.rxOverrun, rfl, ?_⟩
    rw [State.withOpenFrame_held]
    split <;> rfl
  case txClose => exact ⟨_, s.held.rxOverrun, rfl, by rw [State.withOpenFrame_held]; rfl⟩
  case txOpen | lineAccept | lineIdle => exact ⟨_, s.held.rxOverrun, rfl, by split <;> rfl⟩
  case txGo =>
    refine ⟨_, s.held.rxOverrun, rfl, ?_⟩
    split
    · rfl
    · split <;> rfl
  all_goals exact ⟨_, s.held.rxOverrun, rfl, rfl⟩

/-! ## The transmit buffer is locked (R77) -/

/-- While a sequence runs every operation but RESET leaves the transmit buffer: the writes that would change it are rejected
with TX_BUSY, and no other operation writes it (R77). -/
theorem exec_tx_of_busy {i : Instr} {s : State} (h : s.drv.txEngine ≠ .idle) (hreset : i ≠ .reset) :
    ∃ t, exec i s = .next t ∧ t.tx = s.tx := by
  cases i
  case reset => exact absurd rfl hreset
  case wrTxdata | txClose | txCloseCrc => exact ⟨_, rfl, by rw [State.withOpenFrame_busy _ _ h, State.reject_tx]⟩
  case txOpen | txGo => exact ⟨_, rfl, by rw [if_pos h, State.reject_tx]⟩
  case rxByte | wireStart | wireEnd | wireEscape | wireData => exact ⟨_, rfl, State.rxByte_tx _ _⟩
  case lineAccept | lineIdle => exact ⟨_, rfl, by split <;> rfl⟩
  all_goals exact ⟨_, rfl, rfl⟩

end Sys2Proof.Machine

namespace Sys2Proof.Proofs

open Sys2Proof Sys2Proof.Machine

/-- Settles O13: of the held frame every other operation can change RX_OVERRUN alone. -/
theorem heldFrameIsAStableSnapshot : Obligations.HeldFrameIsAStableSnapshot := by
  intro i s t hready hreset hrelease he
  obtain ⟨u, o, hu, hheld⟩ := exec_held_of_frameReady hready hreset hrelease
  obtain rfl : u = t := Host.Outcome.next.inj (hu.symm.trans he)
  rw [hheld]
  exact ⟨hready, rfl, rfl, rfl, rfl, rfl⟩

/-- Settles O36: the writes of the transmit buffer are rejected while the driver is out of IDLE. -/
theorem transmitBufferIsLockedDuringASequence : Obligations.TransmitBufferIsLockedDuringASequence := by
  intro i s t hbusy hreset he
  obtain ⟨u, hu, htx⟩ := exec_tx_of_busy hbusy hreset
  obtain rfl : u = t := Host.Outcome.next.inj (hu.symm.trans he)
  exact htx

end Sys2Proof.Proofs
end

section
/-!
SUPPORT. Runs of presented inputs, composed as triples (20_memory.md R68), and the run of the inputs of one clock cycle in
the order of R72.
-/

namespace Sys2Proof.Machine

/-! ## Runs of inputs -/

/-- In every state that satisfies `P` and has the inputs `xs` in front of its queue, a step for each of them is taken and
leads to a state that satisfies `Q` and has the rest of the queue. -/
def Runs (P : State → Prop) (xs : List Input) (Q : State → Prop) : Prop :=
  ∀ (s : State) (rest : List Input), P s → s.port.inputs = xs ++ rest →
    ∃ t, steps xs.length s = .next t ∧ Q t ∧ t.port.inputs = rest

section Runs
variable {P Q R : State → Prop} {x : Input} {xs ys : List Input} {i : Instr}

theorem Runs.nil : Runs P [] P := fun s _ hp hin => ⟨s, rfl, hp, hin⟩

theorem Runs.append (hx : Runs P xs Q) (hy : Runs Q ys R) : Runs P (xs ++ ys) R := by
  intro s rest hp hin
  obtain ⟨t, ht, hq, hrest⟩ := hx s (ys ++ rest) hp (by rw [hin, List.append_assoc])
  obtain ⟨u, hu, hr, hend⟩ := hy t rest hq hrest
  exact ⟨u, by rw [List.length_append, steps_add ht, hu], hr, hend⟩

/-- One input runs the operation it names, from the state in which the operation has begun. -/
theorem Runs.single (hd : decode x = .ok i)
    (h : ∀ s rest, P s → ∃ t, exec i (s.beginOp i rest) = .next t ∧ Q t) : Runs P [x] Q := by
  intro s rest hp hin
  obtain ⟨t, ht, hq⟩ := h s rest hp
  obtain ⟨u, hu, -, hrest⟩ := exec_next i (s.beginOp i rest)
  obtain rfl : u = t := Host.Outcome.next.inj (hu.symm.trans ht)
  exact ⟨u, steps_succ_of_exec hin hd ht, hq, hrest⟩

/-- An input that may come or not keeps what it keeps when it comes. -/
theorem Runs.optional (b : Bool) (h : Runs P [x] P) : Runs P (if b then [x] else []) P := by
  cases b
  · exact .nil
  · exact h

/-- The inputs are presented to a block that has taken all the earlier ones. -/
theorem Runs.runInputs {s : State} (h : Runs P xs Q) (hin : s.port.inputs = []) (hp : P (s.feed xs)) :
    ∃ t, runInputs xs s = .next t ∧ Q t := by
  obtain ⟨t, ht, hq, -⟩ := h (s.feed xs) [] hp (by simp [hin])
  exact ⟨t, ht, hq⟩

end Runs

/-! ## Received bytes -/

theorem decode_encode_rxByte (b : Byte) : decode (encode (.rxByte b)) = .ok (.rxByte b) := decodeWord_event 1#6 0#32 b

theorem Runs.rxByte {P Q : State → Prop} (b : Byte) (h : ∀ s rest, P s → Q ((s.beginOp (.rxByte b) rest).rxByte b)) :
    Runs P [encode (.rxByte b)] Q :=
  .single (decode_encode_rxByte b) fun s rest hp => ⟨_, rfl, h s rest hp⟩

/-- A byte that may arrive or not keeps what every byte keeps. -/
theorem Runs.optionalByte {P : State → Prop} (rx : Option Byte)
    (h : ∀ b s rest, P s → P ((s.beginOp (.rxByte b) rest).rxByte b)) :
    Runs P (rx.map fun b => encode (.rxByte b)).toList P := by
  cases rx with
  | none => exact .nil
  | some b => exact .rxByte b (h b)

/-! ## Events of the line and of the timebase -/

/-- TICK, LINE_ACCEPT and LINE_IDLE leave the receive side and the values read as they are. -/
theorem exec_lineEvent_receive {i : Instr} (hi : i = .tick ∨ i = .lineAccept ∨ i = .lineIdle) (s : State) :
    ∃ t, exec i s = .next t ∧ t.rx = s.rx ∧ t.held = s.held ∧ t.port.readLog = s.port.readLog := by
  rcases hi with rfl | rfl | rfl
  · exact ⟨_, rfl, rfl, rfl, rfl⟩
  · refine ⟨_, rfl, ?_⟩
    split <;> exact ⟨rfl, rfl, rfl⟩
  · refine ⟨_, rfl, ?_⟩
    split <;> exact ⟨rfl, rfl, rfl⟩

/-- The receive side and the values read satisfy `F`. -/
def OfReceiveSide (F : Accumulator → HeldFrame → List Word → Prop) (s : State) : Prop :=
  F s.rx s.held s.port.readLog

theorem Runs.lineEvent {F : Accumulator → HeldFrame → List Word → Prop} {x : Input} {i : Instr} (hd : decode x = .ok i)
    (hi : i = .tick ∨ i = .lineAccept ∨ i = .lineIdle) : Runs (OfReceiveSide F) [x] (OfReceiveSide F) := by
  refine .single hd fun s rest hF => ?_
  obtain ⟨t, ht, hrx, hheld, hlog⟩ := exec_lineEvent_receive hi (s.beginOp i rest)
  refine ⟨t, ht, ?_⟩
  rw [OfReceiveSide, hrx, hheld, hlog]
  exact hF

/-- LINE_ACCEPT outside SEND: nothing is offered (R225). -/
theorem exec_lineAccept_of_ne_send {s : State} (h : s.drv.txEngine ≠ .send) : exec .lineAccept s = .next s :=
  congrArg Host.Outcome.next (if_neg h)

/-- LINE_IDLE outside DRAIN (R226). -/
theorem exec_lineIdle_of_ne_drain {s : State} (h : s.drv.txEngine ≠ .drain) : exec .lineIdle s = .next s :=
  congrArg Host.Outcome.next (if_neg h)

/-- The TICK that ends the hold wait (R224). -/
theorem Driver.tick_hold_zero {d : Driver} (h : d.txEngine = .hold) (hc : d.txcnt = 0#16) :
    d.tick = { d with txEngine := .idle, txDone := true } := by
  simp [Driver.tick, h, hc]

/-! ## The inputs of a cycle -/

/-- The access that writes `m` to STATUS. -/
def HostAccess.writeStatus (m : Word) : HostAccess := { write := true, word := 1#10, wdata := m }

/-- The access that reads STATUS, with the ignored write data `m`. -/
def HostAccess.readStatus (m : Word) : HostAccess := { write := false, word := 1#10, wdata := m }

/-- The access that writes RX_RELEASE to CMD. -/
def HostAccess.release : HostAccess := { write := true, word := 0#10, wdata := 0x00000005#32 }

theorem HostAccess.decode_writeStatus (m : Word) : decode (HostAccess.writeStatus m).input = .ok (.wrStatus m) :=
  decodeWord_write 0#2 (1#10 ++ 0#2) m

theorem HostAccess.decode_readStatus (m : Word) : decode (HostAccess.readStatus m).input = .ok .rdStatus :=
  decodeWord_read 0#2 (1#10 ++ 0#2) 0#32

theorem HostAccess.decode_release : decode HostAccess.release.input = .ok (.rxRelease 0#28) := by decide

section Cycle
variable {c : Cycle} {a : HostAccess} {P Q : State → Prop} {F : Accumulator → HeldFrame → List Word → Prop}
  (hreset : c.reset = false) (hhost : c.host = some a)
include hreset hhost

/-- A cycle without RESET and with a host access: the access comes first, then the received byte, then the events of the line
and of the timebase (R72). -/
theorem Runs.cycle {R S T U : State → Prop} (haccess : Runs P [a.input] Q)
    (hbyte : Runs Q (c.rxByte.map fun b => encode (.rxByte b)).toList R)
    (haccept : Runs R (if c.lineAccept then [encode .lineAccept] else []) S)
    (hidle : Runs S (if c.lineIdle then [encode .lineIdle] else []) T)
    (htick : Runs T (if c.tick then [encode .tick] else []) U) : Runs P c.inputs U := by
  simp only [Cycle.inputs, hreset, hhost]
  exact (((haccess.append hbyte).append haccept).append hidle).append htick

/-- The events behind the received byte keep the receive side and the values read. -/
theorem Runs.cycle_receive (haccess : Runs P [a.input] Q)
    (hbyte : Runs Q (c.rxByte.map fun b => encode (.rxByte b)).toList (OfReceiveSide F)) :
    Runs P c.inputs (OfReceiveSide F) :=
  .cycle hreset hhost haccess hbyte (.optional _ (.lineEvent (i := .lineAccept) rfl (by simp)))
    (.optional _ (.lineEvent (i := .lineIdle) rfl (by simp))) (.optional _ (.lineEvent (i := .tick) rfl (by simp)))

/-- The byte of a cycle acts on what the host access has left. -/
theorem Runs.cycle_byte {b : Byte} (hrx : c.rxByte = some b) (haccess : Runs P [a.input] Q)
    (hbyte : ∀ s rest, Q s → OfReceiveSide F ((s.beginOp (.rxByte b) rest).rxByte b)) :
    Runs P c.inputs (OfReceiveSide F) :=
  .cycle_receive hreset hhost haccess (by rw [hrx]; exact .rxByte b hbyte)

end Cycle

end Sys2Proof.Machine
end

section
/-!
SUPPORT. What a received byte does to an addressed frame (41_accumulator.md R182, R185), and what the events of a cycle find
after its host access (20_memory.md R73).
-/

namespace Sys2Proof.Machine

/-! ## A received byte with an addressed frame in progress -/

/-- Every received byte sets RX_ACTIVITY (R25). -/
theorem State.rxByte_rxActivity (s : State) (b : Byte) : (s.rxByte b).rx.rxActivity = true := by
  rcases s.rxByte_cases b with ⟨-, e⟩ | ⟨-, -, e⟩ | ⟨-, -, -, e⟩ | ⟨-, -, e⟩ <;> rw [e]
  · rfl
  · rfl
  · exact Accumulator.advance_rxActivity ..
  · rcases State.endFrame_cases { s with rx := s.rx.advance s.cfg.rxDepth endByte } with
      ⟨-, e⟩ | ⟨-, -, e⟩ | ⟨-, -, -, e⟩ | ⟨-, -, -, e⟩ <;> rw [e] <;> exact Accumulator.advance_rxActivity ..

/-- A frame is in progress, and the byte after its START was an address of the block. -/
def Accumulator.Addressed (a : Accumulator) : Prop := a.rxState = .inFrame ∧ a.rxAwait = false ∧ a.rxMatch = true

theorem Accumulator.Addressed.advance_rxMatch {a : Accumulator} (h : a.Addressed) (depth : Nat) (b : Byte) :
    (a.advance depth b).rxMatch = true := by
  obtain ⟨-, hawait, hmatch⟩ := h
  simp [hawait, hmatch]

/-- The frame in progress is addressed to the block, and with its END it is too long. -/
def TooLongFrame (s : State) : Prop := s.rx.Addressed ∧ (s.rx.rxOvf = true ∨ s.cfg.rxDepth ≤ s.rx.accLen)

/-- The frame in progress is addressed to the block, and with its END it fits. -/
def FittingFrame (s : State) : Prop := s.rx.Addressed ∧ s.rx.rxOvf = false ∧ s.rx.accLen < s.cfg.rxDepth

/-- The END of a frame that is too long sets RX_TOOLONG (R185). -/
theorem TooLongFrame.rxByte_end {s : State} (h : TooLongFrame s) : (s.rxByte endByte).rx.rxToolong = true := by
  obtain ⟨ha, hlong⟩ := h
  have hmatch := ha.advance_rxMatch s.cfg.rxDepth endByte
  have hovf : (s.rx.advance s.cfg.rxDepth endByte).rxOvf = true := by
    rw [Accumulator.advance_rxOvf]
    split
    · exact hlong.resolve_right (by omega)
    · rfl
  rw [s.rxByte_end ha.1]
  rcases State.endFrame_cases { s with rx := s.rx.advance s.cfg.rxDepth endByte } with
    ⟨hm, -⟩ | ⟨-, -, e⟩ | ⟨-, ho, -⟩ | ⟨-, ho, -⟩
  · exact absurd (hmatch.symm.trans hm) (by decide)
  · rw [e]
  · exact absurd (hovf.symm.trans ho) (by decide)
  · exact absurd (hovf.symm.trans ho) (by decide)

/-- The END of a frame that fits: an overrun when a frame is held, a delivery when none is (R185). -/
theorem FittingFrame.rxByte_end {s : State} (h : FittingFrame s) :
    (s.held.frameReady = true ∧ (s.rxByte endByte).held = { s.held with rxOverrun := true }) ∨
    (s.held.frameReady = false ∧
      (s.rxByte endByte).held = s.held.deliver (s.rx.acc.set s.rx.accLen endByte) (s.rx.accLen + 1)) := by
  obtain ⟨ha, hovf, hlt⟩ := h
  have hmatch := ha.advance_rxMatch s.cfg.rxDepth endByte
  have hovf' : (s.rx.advance s.cfg.rxDepth endByte).rxOvf = false := by simp [hlt, hovf]
  rw [s.rxByte_end ha.1]
  rcases State.endFrame_cases { s with rx := s.rx.advance s.cfg.rxDepth endByte } with
    ⟨hm, -⟩ | ⟨-, ho, -⟩ | ⟨-, -, hready, e⟩ | ⟨-, -, hready, e⟩
  · exact absurd (hmatch.symm.trans hm) (by decide)
  · exact absurd (ho.symm.trans hovf') (by decide)
  · exact .inl ⟨hready, by rw [e]⟩
  · exact .inr ⟨hready, by rw [e]; simp [hlt]⟩

/-! ## Cycles with a clear of STATUS -/

/-- The next TICK ends the hold wait (R224). -/
def HoldEnds (s : State) : Prop := s.drv.txEngine = .hold ∧ s.drv.txcnt = 0#16

section ClearStatus
variable {c : Cycle} {m : Word} (hreset : c.reset = false) (hhost : c.host = some (.writeStatus m))

/-- A write to STATUS keeps what does not depend on the bits it clears. -/
theorem Runs.writeStatus {P : State → Prop}
    (h : ∀ s rest, P s → ∃ t, exec (.wrStatus m) (s.beginOp (.wrStatus m) rest) = .next t ∧ P t) :
    Runs P [(HostAccess.writeStatus m).input] P := .single (HostAccess.decode_writeStatus m) h

include hreset hhost

/-- A clear does not lose RX_ACTIVITY of the cycle's byte. -/
theorem Runs.clear_rxActivity {b : Byte} (hrx : c.rxByte = some b) :
    Runs (fun _ => True) c.inputs (OfReceiveSide fun a _ _ => a.rxActivity = true) :=
  .cycle_byte hreset hhost hrx (.writeStatus fun _ _ _ => ⟨_, rfl, trivial⟩) fun _ _ _ => State.rxByte_rxActivity _ b

/-- A clear does not lose RX_TOOLONG of the cycle's END. -/
theorem Runs.clear_rxToolong (hrx : c.rxByte = some endByte) :
    Runs TooLongFrame c.inputs (OfReceiveSide fun a _ _ => a.rxToolong = true) :=
  .cycle_byte hreset hhost hrx (.writeStatus fun _ _ h => ⟨_, rfl, h⟩) fun _ _ h => TooLongFrame.rxByte_end h

/-- A clear does not lose RX_OVERRUN of the cycle's END. -/
theorem Runs.clear_rxOverrun (hrx : c.rxByte = some endByte) :
    Runs (fun s => FittingFrame s ∧ s.held.frameReady = true) c.inputs
      (OfReceiveSide fun _ f _ => f.rxOverrun = true) := by
  refine .cycle_byte hreset hhost hrx (.writeStatus fun _ _ h => ⟨_, rfl, h⟩) fun s rest ⟨hfit, hready⟩ => ?_
  rcases FittingFrame.rxByte_end (s := s.beginOp (.rxByte endByte) rest) hfit with ⟨-, e⟩ | ⟨hnone, -⟩
  · rw [OfReceiveSide, e]
  · exact absurd (hready.symm.trans hnone) (by decide)

/-- A clear does not lose TX_DONE of the cycle's TICK. -/
theorem Runs.clear_txDone (htick : c.tick = true) : Runs HoldEnds c.inputs fun s => s.drv.txDone = true := by
  refine .cycle hreset hhost (.writeStatus fun _ _ h => ⟨_, rfl, h⟩) (R := HoldEnds) (.optionalByte _ ?_) (S := HoldEnds)
    (.optional _ (.single (i := .lineAccept) rfl ?_)) (T := HoldEnds) (.optional _ (.single (i := .lineIdle) rfl ?_)) ?_
  · intro b s rest h
    rw [HoldEnds, State.rxByte_drv]
    exact h
  · exact fun s rest h => ⟨_, exec_lineAccept_of_ne_send (by simp [h.1]), h⟩
  · exact fun s rest h => ⟨_, exec_lineIdle_of_ne_drain (by simp [h.1]), h⟩
  · rw [htick]
    refine .single (i := .tick) rfl fun s rest ⟨hhold, hcnt⟩ => ⟨_, rfl, ?_⟩
    exact congrArg Driver.txDone (Driver.tick_hold_zero hhold hcnt)

end ClearStatus

/-! ## Cycles with a release, and with a read of STATUS -/

section OtherAccess
variable {c : Cycle} (hreset : c.reset = false)
include hreset

/-- After a release the frame that ends in the cycle is delivered, and RX_OVERRUN stays. -/
theorem Runs.release_delivers {n : Nat} {o : Bool} (hhost : c.host = some .release) (hrx : c.rxByte = some endByte) :
    Runs (fun s => FittingFrame s ∧ s.rx.accLen = n ∧ s.held.rxOverrun = o) c.inputs
      (OfReceiveSide fun _ f _ => f.frameReady = true ∧ f.rxlen = n + 1 ∧ f.rxOverrun = o) := by
  refine .cycle_byte hreset hhost hrx
    (Q := fun s => (FittingFrame s ∧ s.rx.accLen = n ∧ s.held.rxOverrun = o) ∧ s.held.frameReady = false)
    (.single HostAccess.decode_release fun _ _ h => ⟨_, rfl, h, rfl⟩) fun s rest ⟨⟨hfit, hlen, ho⟩, hfree⟩ => ?_
  rcases FittingFrame.rxByte_end (s := s.beginOp (.rxByte endByte) rest) hfit with ⟨hready, -⟩ | ⟨-, e⟩
  · exact absurd (hready.symm.trans hfree) (by decide)
  · rw [OfReceiveSide, e]
    exact ⟨rfl, congrArg (· + 1) hlen, ho⟩

/-- A read of STATUS returns the value before the events of its cycle. -/
theorem Runs.readStatus_first {m v : Word} {log : List Word} (hhost : c.host = some (.readStatus m)) :
    Runs (fun s => s.statusValue = v ∧ s.port.readLog = log) c.inputs
      (OfReceiveSide fun _ _ reads => reads = log ++ [v]) := by
  refine .cycle_receive hreset hhost (.single (HostAccess.decode_readStatus m) ?_) (.optionalByte _ ?_)
  · rintro s rest ⟨rfl, rfl⟩
    exact ⟨_, rfl, rfl⟩
  · intro b s rest h
    rw [OfReceiveSide, State.rxByte_port]
    exact h

end OtherAccess

end Sys2Proof.Machine

namespace Sys2Proof.Proofs

open Sys2Proof Sys2Proof.Machine

/-- Settles O52: the steps of a cycle begin with the host access, and the events act on what it has left. -/
theorem hostAccessPrecedesTheEventsOfItsCycle : Obligations.HostAccessPrecedesTheEventsOfItsCycle := by
  intro s m rx accept idle tick hin cycle addressedFrame
  refine ⟨fun b => ?_, fun ha hlong => ?_, fun ha hovf hlt hready => ?_, fun hhold hcnt => ?_, fun ha hovf hlt => ?_, ?_⟩
  · exact (Runs.clear_rxActivity rfl rfl rfl).runInputs hin trivial
  · exact (Runs.clear_rxToolong rfl rfl rfl).runInputs hin ⟨ha, hlong⟩
  · exact (Runs.clear_rxOverrun rfl rfl rfl).runInputs hin ⟨⟨ha, hovf, hlt⟩, hready⟩
  · exact (Runs.clear_txDone rfl rfl rfl).runInputs hin ⟨hhold, hcnt⟩
  · exact (Runs.release_delivers rfl rfl rfl).runInputs hin ⟨⟨ha, hovf, hlt⟩, rfl, rfl⟩
  · exact (Runs.readStatus_first rfl rfl).runInputs hin ⟨rfl, rfl⟩

end Sys2Proof.Proofs
end

section
/-!
SUPPORT. The fields of an arbitrary step-input word (30_encoding.md R96, R97), and what each decoder answers, by the values of
the field it reads (R62, R63, R95, R98).
-/

namespace Sys2Proof

/-! ## The fields of a word as numbers -/

theorem wordKind_toNat (w : StepWord) : (wordKind w).toNat = w.toNat / 2 ^ 46 := by
  rw [wordKind, BitVec.extractLsb'_toNat, Nat.shiftRight_eq_div_pow]
  omega

theorem wordEvt_toNat (w : StepWord) : (wordEvt w).toNat = w.toNat / 2 ^ 40 % 64 := by
  rw [wordEvt, BitVec.extractLsb'_toNat, Nat.shiftRight_eq_div_pow]

theorem wordOffset_toNat_mod_four (w : StepWord) : (wordOffset w).toNat % 4 = w.toNat / 2 ^ 32 % 4 := by
  rw [wordOffset, BitVec.extractLsb'_toNat, Nat.shiftRight_eq_div_pow]
  omega

/-! ## A word is made of its fields -/

/-- A word read as an event: KIND, EVT, the ignored bits 39:8, DATA. -/
theorem eventFields_append (w : StepWord) :
    wordKind w ++ wordEvt w ++ w.extractLsb' 8 32 ++ wordData w = w := by
  rw [wordKind, wordEvt, wordData, BitVec.extractLsb'_append_extractLsb'_eq_extractLsb' (start₂ := 46) (start₁ := 40) rfl,
    BitVec.extractLsb'_append_extractLsb'_eq_extractLsb' (start₂ := 40) (start₁ := 8) rfl]
  exact BitVec.extractLsb'_append_extractLsb'

/-- A word read as a host access: KIND, the ignored bits 45:44, OFFSET, WDATA. -/
theorem accessFields_append (w : StepWord) :
    wordKind w ++ w.extractLsb' 44 2 ++ wordOffset w ++ wordWdata w = w := by
  rw [wordKind, wordOffset, wordWdata,
    BitVec.extractLsb'_append_extractLsb'_eq_extractLsb' (start₂ := 46) (start₁ := 44) rfl,
    BitVec.extractLsb'_append_extractLsb'_eq_extractLsb' (start₂ := 44) (start₁ := 32) rfl]
  exact BitVec.extractLsb'_append_extractLsb'

/-- A word of KIND 00 is an event's. -/
theorem exists_event_of_kind {w : StepWord} (h : wordKind w = 0b00#2) :
    ∃ (evt : BitVec 6) (x : BitVec 32) (data : Byte), w = 0b00#2 ++ evt ++ x ++ data :=
  ⟨_, _, _, by rw [← h, eventFields_append]⟩

/-- A word of any KIND has the fields of an access. -/
theorem exists_access_of_kind {w : StepWord} {kind : BitVec 2} (h : wordKind w = kind) :
    ∃ (pad : BitVec 2) (off : Offset) (v : Word), w = kind ++ pad ++ off ++ v :=
  ⟨_, _, _, by rw [← h, accessFields_append]⟩

/-- A word is an event, a host read, a host write, or of KIND 11 (R96). -/
theorem stepWord_cases (w : StepWord) :
    (∃ (evt : BitVec 6) (x : BitVec 32) (data : Byte), w = 0b00#2 ++ evt ++ x ++ data) ∨
    (∃ (pad : BitVec 2) (off : Offset) (v : Word), w = 0b01#2 ++ pad ++ off ++ v) ∨
    (∃ (pad : BitVec 2) (off : Offset) (v : Word), w = 0b10#2 ++ pad ++ off ++ v) ∨
    wordKind w = 0b11#2 := by
  have hkinds : ∀ k : BitVec 2, k = 0b00#2 ∨ k = 0b01#2 ∨ k = 0b10#2 ∨ k = 0b11#2 := by decide
  rcases hkinds (wordKind w) with h | h | h | h
  · exact .inl (exists_event_of_kind h)
  · exact .inr (.inl (exists_access_of_kind h))
  · exact .inr (.inr (.inl (exists_access_of_kind h)))
  · exact .inr (.inr (.inr h))

/-! ## Events -/

/-- What an event word decodes to, by its EVT: DATA matters to RX_BYTE alone (R96). -/
theorem decodeEvent_cases (evt : BitVec 6) :
    (evt = 0x00#6 ∧ ∀ data, decodeEvent evt data = .ok .reset) ∨
    (evt = 0x01#6 ∧ ∀ data, decodeEvent evt data = .ok (.rxByte data)) ∨
    (evt = 0x02#6 ∧ ∀ data, decodeEvent evt data = .ok .tick) ∨
    (evt = 0x03#6 ∧ ∀ data, decodeEvent evt data = .ok .lineAccept) ∨
    (evt = 0x04#6 ∧ ∀ data, decodeEvent evt data = .ok .lineIdle) ∨
    (5 ≤ evt.toNat ∧ ∀ data, decodeEvent evt data = .error (.eventNone evt)) := by
  have hnames : ∀ e : BitVec 6, e = 0#6 ∨ e = 1#6 ∨ e = 2#6 ∨ e = 3#6 ∨ e = 4#6 ∨ 5 ≤ e.toNat := by decide
  rcases hnames evt with rfl | rfl | rfl | rfl | rfl | h
  · exact .inl ⟨rfl, fun _ => rfl⟩
  · exact .inr (.inl ⟨rfl, fun _ => rfl⟩)
  · exact .inr (.inr (.inl ⟨rfl, fun _ => rfl⟩))
  · exact .inr (.inr (.inr (.inl ⟨rfl, fun _ => rfl⟩)))
  · exact .inr (.inr (.inr (.inr (.inl ⟨rfl, fun _ => rfl⟩))))
  · refine .inr (.inr (.inr (.inr (.inr ⟨h, fun data => ?_⟩))))
    unfold decodeEvent
    split
    case h_6 => rfl
    all_goals omega

theorem decodeEvent_error_iff (evt : BitVec 6) (data : Byte) :
    (∃ e, decodeEvent evt data = .error e) ↔ 5 ≤ evt.toNat := by
  rcases decodeEvent_cases evt with ⟨rfl, h⟩ | ⟨rfl, h⟩ | ⟨rfl, h⟩ | ⟨rfl, h⟩ | ⟨rfl, h⟩ | ⟨hlarge, h⟩
  case inr.inr.inr.inr.inr => simp [h, hlarge]
  all_goals simp [h]

/-- Every event but RX_BYTE ignores DATA. -/
theorem decodeEvent_ignores_data {evt : BitVec 6} (hrx : evt ≠ 1#6) (b c : Byte) :
    decodeEvent evt b = decodeEvent evt c := by
  rcases decodeEvent_cases evt with ⟨-, h⟩ | ⟨hevt, -⟩ | ⟨-, h⟩ | ⟨-, h⟩ | ⟨-, h⟩ | ⟨-, h⟩
  case inr.inl => exact absurd hevt hrx
  all_goals rw [h, h]

/-! ## Offsets (R62, R63) -/

theorem windowSelect_toNat (off : Offset) : (off.extractLsb' 10 2).toNat = off.toNat / 1024 := by
  rw [BitVec.extractLsb'_toNat, Nat.shiftRight_eq_div_pow]
  omega

theorem registerPage_toNat (off : Offset) : (off.extractLsb' 6 4).toNat = off.toNat / 64 % 16 := by
  rw [BitVec.extractLsb'_toNat, Nat.shiftRight_eq_div_pow]

/-- Bits 11:10 of an offset below the windows. -/
theorem windowSelect_eq_zero {off : Offset} (h : off.toNat < 0x400) : off.extractLsb' 10 2 = 0#2 := by
  rw [← BitVec.toNat_inj, windowSelect_toNat]
  exact Nat.div_eq_of_lt h

theorem offset_bit_clear {off : Offset} {k : Nat} (h : off.toNat < 2 ^ k) : off.getLsbD k = false := by
  rw [← BitVec.testBit_toNat]
  exact Nat.testBit_lt_two_pow h

theorem offset_bit_set {off : Offset} {k : Nat} (hle : 2 ^ k ≤ off.toNat) (hlt : off.toNat < 2 ^ (k + 1)) :
    off.getLsbD k = true := by
  rw [← BitVec.testBit_toNat]
  exact Nat.testBit_of_two_pow_le_and_two_pow_add_one_gt hle hlt

theorem offsetIn_iff {lo hi : Nat} {off : Offset} :
    offsetIn lo hi off = true ↔ lo ≤ off.toNat ∧ off.toNat ≤ hi ∧ off.toNat % 4 = 0 := by
  simp only [offsetIn, Bool.and_eq_true, decide_eq_true_iff, and_assoc]

theorem offsetAligned_of_offsetIn {lo hi : Nat} {off : Offset} (h : offsetIn lo hi off = true) :
    offsetAligned off = true := (offsetAligned_iff off).2 (offsetIn_iff.1 h).2.2

/-- An aligned offset is a register's, lies in one of the four reserved ranges, or is a word of one of the three windows. -/
theorem offset_cases {off : Offset} (h : offsetAligned off = true) :
    off.toNat < 0x40 ∨ offsetIn 0x040 0x07C off = true ∨ offsetIn 0x080 0x0FC off = true ∨
    offsetIn 0x100 0x1FC off = true ∨ offsetIn 0x200 0x3FC off = true ∨
    off.extractLsb' 10 2 = 0b01#2 ∨ off.extractLsb' 10 2 = 0b10#2 ∨ off.extractLsb' 10 2 = 0b11#2 := by
  rw [offsetAligned_iff] at h
  simp only [offsetIn_iff, ← BitVec.toNat_inj, windowSelect_toNat, BitVec.toNat_ofNat]
  omega

/-! Each lemma says what a read and a write of an offset are. -/

theorem decodeAccess_register {off : Offset} (h : off.toNat < 0x40) :
    decodeRead off = decodeReadReg (off.extractLsb' 2 4) ∧
    ∀ v, decodeWrite off v = decodeWriteReg (off.extractLsb' 2 4) v := by
  have hsel : off.extractLsb' 10 2 = 0#2 := windowSelect_eq_zero (by omega)
  have hpage : off.extractLsb' 6 4 = 0#4 := by
    rw [← BitVec.toNat_inj, registerPage_toNat, Nat.div_eq_of_lt h]
    rfl
  simp [decodeRead, decodeWrite, hsel, hpage]

theorem decodeAccess_reserved {off : Offset} (hle : 0x40 ≤ off.toNat) (hlt : off.toNat < 0x400) :
    decodeRead off = decodeReadRsvd off ∧ ∀ v, decodeWrite off v = decodeWriteRsvd off v := by
  have hsel : off.extractLsb' 10 2 = 0#2 := windowSelect_eq_zero hlt
  have hpage : off.extractLsb' 6 4 ≠ 0#4 := by
    rw [Ne, ← BitVec.toNat_inj, registerPage_toNat, BitVec.toNat_ofNat]
    omega
  simp [decodeRead, decodeWrite, hsel, hpage]

theorem decodeAccess_rsvd200 {off : Offset} (h : offsetIn 0x200 0x3FC off = true) :
    decodeRead off = .rdRsvd200 off ∧ ∀ v, decodeWrite off v = .wrRsvd200 off v := by
  obtain ⟨hlo, hhi, -⟩ := offsetIn_iff.1 h
  obtain ⟨hread, hwrite⟩ := decodeAccess_reserved (off := off) (by omega) (by omega)
  have h9 : off.getLsbD 9 = true := offset_bit_set hlo (by omega)
  simp [hread, hwrite, decodeReadRsvd, decodeWriteRsvd, h9, -BitVec.getLsbD_eq_getElem]

theorem decodeAccess_rsvd100 {off : Offset} (h : offsetIn 0x100 0x1FC off = true) :
    decodeRead off = .rdRsvd100 off ∧ ∀ v, decodeWrite off v = .wrRsvd100 off v := by
  obtain ⟨hlo, hhi, -⟩ := offsetIn_iff.1 h
  obtain ⟨hread, hwrite⟩ := decodeAccess_reserved (off := off) (by omega) (by omega)
  have h9 : off.getLsbD 9 = false := offset_bit_clear (by omega)
  have h8 : off.getLsbD 8 = true := offset_bit_set hlo (by omega)
  simp [hread, hwrite, decodeReadRsvd, decodeWriteRsvd, h9, h8, -BitVec.getLsbD_eq_getElem]

theorem decodeAccess_rsvd080 {off : Offset} (h : offsetIn 0x080 0x0FC off = true) :
    decodeRead off = .rdRsvd080 off ∧ ∀ v, decodeWrite off v = .wrRsvd080 off v := by
  obtain ⟨hlo, hhi, -⟩ := offsetIn_iff.1 h
  obtain ⟨hread, hwrite⟩ := decodeAccess_reserved (off := off) (by omega) (by omega)
  have h9 : off.getLsbD 9 = false := offset_bit_clear (by omega)
  have h8 : off.getLsbD 8 = false := offset_bit_clear (by omega)
  have h7 : off.getLsbD 7 = true := offset_bit_set hlo (by omega)
  simp [hread, hwrite, decodeReadRsvd, decodeWriteRsvd, h9, h8, h7, -BitVec.getLsbD_eq_getElem]

theorem decodeAccess_rsvd040 {off : Offset} (h : offsetIn 0x040 0x07C off = true) :
    decodeRead off = .rdRsvd040 off ∧ ∀ v, decodeWrite off v = .wrRsvd040 off v := by
  obtain ⟨hlo, hhi, -⟩ := offsetIn_iff.1 h
  obtain ⟨hread, hwrite⟩ := decodeAccess_reserved (off := off) (by omega) (by omega)
  have h9 : off.getLsbD 9 = false := offset_bit_clear (by omega)
  have h8 : off.getLsbD 8 = false := offset_bit_clear (by omega)
  have h7 : off.getLsbD 7 = false := offset_bit_clear (by omega)
  simp [hread, hwrite, decodeReadRsvd, decodeWriteRsvd, h9, h8, h7, -BitVec.getLsbD_eq_getElem]

theorem decodeAccess_rxraw {off : Offset} (h : off.extractLsb' 10 2 = 0b01#2) :
    decodeRead off = .rdRxraw (windowIndex off) ∧ ∀ v, decodeWrite off v = .wrRxraw (windowIndex off) v := by
  simp [decodeRead, decodeWrite, h]

theorem decodeAccess_rxpay {off : Offset} (h : off.extractLsb' 10 2 = 0b10#2) :
    decodeRead off = .rdRxpay (windowIndex off) ∧ ∀ v, decodeWrite off v = .wrRxpay (windowIndex off) v := by
  simp [decodeRead, decodeWrite, h]

theorem decodeAccess_txbuf {off : Offset} (h : off.extractLsb' 10 2 = 0b11#2) :
    decodeRead off = .rdTxbuf (windowIndex off) ∧ ∀ v, decodeWrite off v = .wrTxbuf (windowIndex off) v := by
  simp [decodeRead, decodeWrite, h]

/-! ## Command codes (R95) -/

theorem codeIn_iff {lo hi : Nat} {v : Word} :
    codeIn lo hi v = true ↔ lo ≤ (v.extractLsb' 0 4).toNat ∧ (v.extractLsb' 0 4).toNat ≤ hi := by
  simp only [codeIn, Bool.and_eq_true, decide_eq_true_iff, Laws.toNat_code]

theorem decodeCmd_rsvd6to7 {v : Word} (h : codeIn 6 7 v = true) : decodeCmd v = .cmdRsvd6to7 v := by
  obtain ⟨hlo, hhi⟩ := codeIn_iff.1 h
  obtain hcode | hcode : (v.extractLsb' 0 4).toNat = 6 ∨ (v.extractLsb' 0 4).toNat = 7 := by omega
  · simp only [decodeCmd, hcode]
  · simp only [decodeCmd, hcode]

theorem decodeCmd_rsvd8to15 {v : Word} (h : codeIn 8 15 v = true) : decodeCmd v = .cmdRsvd8to15 v := by
  obtain ⟨hlo, -⟩ := codeIn_iff.1 h
  unfold decodeCmd
  split
  case h_9 => rfl
  all_goals omega

/-! ## Decoding what the encoder writes -/

theorem decode_readWord {off : Offset} (h : offsetAligned off = true) :
    decode (.word (readWord off)) = .ok (decodeRead off) :=
  (decodeWord_read 0#2 off 0#32).trans (if_pos h)

theorem decode_writeWord {off : Offset} (h : offsetAligned off = true) (v : Word) :
    decode (.word (writeWord off v)) = .ok (decodeWrite off v) :=
  (decodeWord_write 0#2 off v).trans (if_pos h)

/-- Offset 0 is CMD, whose writes decode by the command code. -/
theorem decode_writeCmd (v : Word) : decode (.word (writeWord 0x000#12 v)) = .ok (decodeCmd v) :=
  decode_writeWord rfl v

theorem decodeWire_data {b : Byte} (h : (Instr.wireData b).wellFormed = true) : decodeWire b = .wireData b := by
  simp only [Instr.wellFormed, Bool.and_eq_true, bne_iff_ne] at h
  obtain ⟨⟨hstart, hend⟩, hescape⟩ := h
  simp [decodeWire, hstart, hend, hescape]

/-- An access of a reserved or window offset decodes to the operation that the offset's range gives. -/
theorem decode_readWord_eq {off : Offset} {i : Instr} (h : offsetAligned off = true) (hi : decodeRead off = i) :
    decode (.word (readWord off)) = .ok i := (decode_readWord h).trans (congrArg _ hi)

theorem decode_writeWord_eq {off : Offset} {i : Instr} {v : Word} (h : offsetAligned off = true)
    (hi : decodeWrite off v = i) : decode (.word (writeWord off v)) = .ok i :=
  (decode_writeWord h v).trans (congrArg _ hi)

theorem decode_encode {i : Instr} (h : i.wellFormed = true) : decode (encode i) = .ok i := by
  cases i
  case reset | tick | lineAccept | lineIdle => rfl
  case rxByte b => exact Machine.decode_encode_rxByte b
  case rdCmd | rdStatus | rdIrqen | rdErrcause | rdTxdata | rdCrc | rdCrcdata | rdGuard | rdHold | rdRxlen | rdPaylen
      | rdTxlen | rdState | rdAcclen | rdTxptr | rdTxcnt => exact decode_readWord rfl
  case nop | txOpen | txClose | txCloseCrc | txGo | rxRelease =>
    exact (decode_writeCmd _).trans (by simp [decodeCmd])
  case cmdRsvd6to7 v => exact (decode_writeCmd v).trans (congrArg _ (decodeCmd_rsvd6to7 h))
  case cmdRsvd8to15 v => exact (decode_writeCmd v).trans (congrArg _ (decodeCmd_rsvd8to15 h))
  case wrStatus | wrIrqen | wrErrcause | wrTxdata | wrCrc | wrCrcdata | wrGuard | wrHold | wrRxlen | wrPaylen | wrTxlen
      | wrState | wrAcclen | wrTxptr | wrTxcnt => exact decode_writeWord rfl _
  case rdRsvd200 => exact decode_readWord_eq (offsetAligned_of_offsetIn h) (decodeAccess_rsvd200 h).1
  case rdRsvd100 => exact decode_readWord_eq (offsetAligned_of_offsetIn h) (decodeAccess_rsvd100 h).1
  case rdRsvd080 => exact decode_readWord_eq (offsetAligned_of_offsetIn h) (decodeAccess_rsvd080 h).1
  case rdRsvd040 => exact decode_readWord_eq (offsetAligned_of_offsetIn h) (decodeAccess_rsvd040 h).1
  case wrRsvd200 => exact decode_writeWord_eq (offsetAligned_of_offsetIn h) ((decodeAccess_rsvd200 h).2 _)
  case wrRsvd100 => exact decode_writeWord_eq (offsetAligned_of_offsetIn h) ((decodeAccess_rsvd100 h).2 _)
  case wrRsvd080 => exact decode_writeWord_eq (offsetAligned_of_offsetIn h) ((decodeAccess_rsvd080 h).2 _)
  case wrRsvd040 => exact decode_writeWord_eq (offsetAligned_of_offsetIn h) ((decodeAccess_rsvd040 h).2 _)
  case rdRxraw | rdRxpay | rdTxbuf => exact decode_readWord_eq (by simp) (by simp [decodeRead])
  case wrRxraw | wrRxpay | wrTxbuf => exact decode_writeWord_eq (by simp) (by simp [decodeWrite])
  case wireStart | wireEnd | wireEscape => rfl
  case wireData b => exact congrArg _ (decodeWire_data h)

end Sys2Proof

namespace Sys2Proof.Proofs

open Sys2Proof Sys2Proof.Machine

/-- Settles O55, operation by operation, from what the decoder answers for its word's fields. -/
theorem decodingAnEncodingGivesTheOperation : Obligations.DecodingAnEncodingGivesTheOperation :=
  fun _ h => decode_encode h

/-- Settles O56, by KIND: an event is refused by its EVT, an access by its alignment. -/
theorem wordsThatNameNoOperation : Obligations.WordsThatNameNoOperation := by
  intro w
  rw [← wordKind_toNat, ← wordEvt_toNat, ← wordOffset_toNat_mod_four]
  rcases stepWord_cases w with ⟨evt, x, data, rfl⟩ | ⟨pad, off, v, rfl⟩ | ⟨pad, off, v, rfl⟩ | hkind
  · rw [decode, decodeWord_event, decodeEvent_error_iff, wordKind_event, wordEvt_event]
    simp
  · rw [decode, decodeWord_read, wordKind_access, wordOffset_access]
    by_cases h : off.toNat % 4 = 0 <;> simp [offsetAligned_iff, h]
  · rw [decode, decodeWord_write, wordKind_access, wordOffset_access]
    by_cases h : off.toNat % 4 = 0 <;> simp [offsetAligned_iff, h]
  · simp [decode, decodeWord, hkind]

/-- Settles O59, from the fields that each kind of word decodes by. -/
theorem ignoredBitsDoNotChangeTheOperation : Obligations.IgnoredBitsDoNotChangeTheOperation := by
  refine ⟨fun evt x y b => ?_, fun evt x y b c hrx => ?_, fun x y off v w => ?_, fun x y off v => ?_⟩ <;>
    simp only [decode]
  · rw [decodeWord_event, decodeWord_event]
  · rw [decodeWord_event, decodeWord_event, decodeEvent_ignores_data hrx]
  · rw [decodeWord_read, decodeWord_read]
  · rw [decodeWord_write, decodeWord_write]

/-- Settles O54: the words are decoded one by one. -/
theorem wordsOfTheTestProgramsDecode : Obligations.WordsOfTheTestProgramsDecode := by
  unfold Obligations.WordsOfTheTestProgramsDecode
  decide

end Sys2Proof.Proofs
end

section
/-!
SUPPORT. The rows of opcode_table.json beside the decoder (30_encoding.md R98): a decoded word lies in its operation's row, and
a word in a row has the fields from which the decoder answers that row.
-/

namespace Sys2Proof

open Sys2Proof.Laws

/-! ## What the decoder answers lies in its row -/

/-- The operation is well formed, and the word lies in the operation's row of step-input words. -/
def Instr.OwnsWord (i : Instr) (w : StepWord) : Prop :=
  i.wellFormed = true ∧ i.row.bits = 48 ∧ i.row.holds w = true

/-- A row that masks KIND and EVT holds every word of the event. -/
theorem Row.holds_event (r : Row) (evt : BitVec 6) (x : BitVec 32) (data : Byte)
    (hm : r.mask = 0b11#2 ++ BitVec.allOnes 6 ++ 0#32 ++ 0#8) (hp : r.pattern = 0b00#2 ++ evt ++ 0#32 ++ 0#8) :
    r.holds (0b00#2 ++ evt ++ x ++ data) = true := by
  rw [Row.holds, beq_iff_eq, hm, hp, BitVec.and_append, BitVec.and_append, BitVec.and_append, BitVec.and_allOnes,
    BitVec.and_zero, BitVec.and_zero]
  rfl

/-- A row that masks KIND, bits of the offset and bits of the data holds every access that agrees with its pattern there. -/
theorem Row.holds_access (r : Row) (kind pad : BitVec 2) (off mo : Offset) (v mv : Word)
    (hm : r.mask = 0b11#2 ++ 0#2 ++ mo ++ mv) (hp : r.pattern = kind ++ 0#2 ++ (off &&& mo) ++ (v &&& mv)) :
    r.holds (kind ++ pad ++ off ++ v) = true := by
  rw [Row.holds, beq_iff_eq, hm, hp, accessWord_and, BitVec.and_zero, show (0b11#2 : BitVec 2) = BitVec.allOnes 2 from rfl,
    BitVec.and_allOnes]

/-- A row that masks no data owns the accesses that agree with its pattern in KIND and the offset. -/
theorem Instr.OwnsWord.access {i : Instr} {kind pad : BitVec 2} {off : Offset} {v : Word} (mo po : Offset)
    (hwf : i.wellFormed = true) (hbits : i.row.bits = 48) (hm : i.row.mask = 0b11#2 ++ 0#2 ++ mo ++ 0#32)
    (hp : i.row.pattern = kind ++ 0#2 ++ po ++ 0#32) (h : off &&& mo = po) : i.OwnsWord (kind ++ pad ++ off ++ v) :=
  ⟨hwf, hbits, Row.holds_access _ kind pad off mo v 0#32 hm (by rw [hp, h, BitVec.and_zero])⟩

theorem decodeEvent_ownsWord {evt : BitVec 6} {data : Byte} {i : Instr} (x : BitVec 32)
    (h : decodeEvent evt data = .ok i) : i.OwnsWord (0b00#2 ++ evt ++ x ++ data) := by
  rcases decodeEvent_cases evt with ⟨rfl, hd⟩ | ⟨rfl, hd⟩ | ⟨rfl, hd⟩ | ⟨rfl, hd⟩ | ⟨rfl, hd⟩ | ⟨-, hd⟩
  case inr.inr.inr.inr.inr => exact nomatch (hd data).symm.trans h
  all_goals
    obtain rfl := Except.ok.inj ((hd data).symm.trans h)
    exact ⟨rfl, rfl, Row.holds_event _ _ x data rfl rfl⟩

/-! ### Registers -/

/-- The offset of the register with a word offset (R62). -/
def registerOffset (reg : BitVec 4) : Offset := 0#6 ++ reg ++ 0#2

/-- An aligned offset below 0x040 is a register's. -/
theorem registerOffset_of_lt {off : Offset} (ha : offsetAligned off = true) (h : off.toNat < 0x40) :
    registerOffset (off.extractLsb' 2 4) = off := by
  have hhigh : off.extractLsb' 6 6 = 0#6 := by
    rw [← BitVec.toNat_inj, BitVec.extractLsb'_toNat, Nat.shiftRight_eq_div_pow, Nat.div_eq_of_lt h]
    rfl
  rw [registerOffset, ← hhigh, ← beq_iff_eq.1 ha,
    BitVec.extractLsb'_append_extractLsb'_eq_extractLsb' (start₂ := 6) (start₁ := 2) rfl]
  exact BitVec.extractLsb'_append_extractLsb'

/-- A read of a register lies in a row that masks KIND and the whole offset. -/
theorem decodeReadReg_ownsWord (reg : BitVec 4) (pad : BitVec 2) (v : Word) :
    (decodeReadReg reg).OwnsWord (0b01#2 ++ pad ++ registerOffset reg ++ v) := by
  have hrows : ∀ r : BitVec 4, (decodeReadReg r).wellFormed = true ∧ (decodeReadReg r).row.bits = 48 ∧
      (decodeReadReg r).row.mask = 0b11#2 ++ 0#2 ++ BitVec.allOnes 12 ++ 0#32 ∧
      (decodeReadReg r).row.pattern = 0b01#2 ++ 0#2 ++ registerOffset r ++ 0#32 := by decide
  obtain ⟨hwf, hbits, hm, hp⟩ := hrows reg
  exact .access _ _ hwf hbits hm hp BitVec.and_allOnes

/-! ### Commands -/

/-- The row of a command depends on its code alone (R95). -/
theorem decodeCmd_row (v : Word) : (decodeCmd v).row = (decodeCmd (0#28 ++ v.extractLsb' 0 4)).row := by
  unfold decodeCmd
  rw [cmdCode]
  split <;> rfl

/-- The rows of the commands mask KIND, the whole offset, which is 0, and bits of the code. -/
theorem commandRow_fields : ∀ code : BitVec 4,
    let r := (decodeCmd (0#28 ++ code)).row
    r.bits = 48 ∧ r.mask = 0b11#2 ++ 0#2 ++ BitVec.allOnes 12 ++ (0#28 ++ r.mask.extractLsb' 0 4) ∧
    r.pattern = 0b10#2 ++ 0#2 ++ 0#12 ++ (0#28 ++ (code &&& r.mask.extractLsb' 0 4)) := by decide

theorem decodeCmd_wellFormed (v : Word) : (decodeCmd v).wellFormed = true := by
  unfold decodeCmd
  split
  case h_7 | h_8 => exact codeIn_iff.2 (by omega)
  case h_9 =>
    simp only [imp_false] at *
    exact codeIn_iff.2 (by omega)
  all_goals rfl

theorem decodeCmd_ownsWord (pad : BitVec 2) (v : Word) : (decodeCmd v).OwnsWord (0b10#2 ++ pad ++ 0#12 ++ v) := by
  refine ⟨decodeCmd_wellFormed v, ?_⟩
  rw [decodeCmd_row]
  obtain ⟨hbits, hm, hp⟩ := commandRow_fields (v.extractLsb' 0 4)
  refine ⟨hbits, Row.holds_access _ _ pad _ _ v _ hm ?_⟩
  rw [wdata_and_code, BitVec.zero_and]
  exact hp

/-! ### Writes of registers -/

/-- A write of another register than CMD lies in a row that masks KIND and the whole offset. -/
theorem decodeWriteReg_ownsWord {reg : BitVec 4} (h : reg ≠ 0#4) (pad : BitVec 2) (v : Word) :
    (decodeWriteReg reg v).OwnsWord (0b10#2 ++ pad ++ registerOffset reg ++ v) := by
  have hrows : ∀ r : BitVec 4, r ≠ 0#4 →
      (decodeWriteReg r 0#32).row.mask = 0b11#2 ++ 0#2 ++ BitVec.allOnes 12 ++ 0#32 ∧
      (decodeWriteReg r 0#32).row.pattern = 0b10#2 ++ 0#2 ++ registerOffset r ++ 0#32 := by decide
  have hdata : (decodeWriteReg reg v).wellFormed = true ∧ (decodeWriteReg reg v).row.bits = 48 ∧
      (decodeWriteReg reg v).row = (decodeWriteReg reg 0#32).row := by
    unfold decodeWriteReg
    split
    case h_1 hzero => exact absurd (BitVec.toNat_inj.1 hzero) h
    all_goals exact ⟨rfl, rfl, rfl⟩
  obtain ⟨hwf, hbits, hrow⟩ := hdata
  obtain ⟨hm, hp⟩ := hrow ▸ hrows reg h
  exact .access _ _ hwf hbits hm hp BitVec.and_allOnes

/-! ### Windows, and every aligned offset -/

/-- The bits of a window's aligned offset that its row masks. -/
theorem window_and_mask {off : Offset} (ha : offsetAligned off = true) :
    off &&& 0xC03#12 = off.extractLsb' 10 2 ++ 0#10 := by
  have hoff : windowOffset (off.extractLsb' 10 2) (windowIndex off) = off := by
    rw [windowOffset, windowIndex, ← beq_iff_eq.1 ha,
      BitVec.extractLsb'_append_extractLsb'_eq_extractLsb' (start₂ := 10) (start₁ := 2) rfl]
    exact BitVec.extractLsb'_append_extractLsb'
  rw [← hoff, EncodesInRow.window, windowSelect_windowOffset]

theorem decodeRegister_ownsWord (reg : BitVec 4) (pad : BitVec 2) (v : Word) :
    (decodeReadReg reg).OwnsWord (0b01#2 ++ pad ++ registerOffset reg ++ v) ∧
    (decodeWriteReg reg v).OwnsWord (0b10#2 ++ pad ++ registerOffset reg ++ v) := by
  refine ⟨decodeReadReg_ownsWord reg pad v, ?_⟩
  by_cases h : reg = 0#4
  · subst h
    exact decodeCmd_ownsWord pad v
  · exact decodeWriteReg_ownsWord h pad v

/-- A read and a write of an aligned offset lie in the rows of the operations that they decode to. -/
theorem decodeAccess_ownsWord {off : Offset} (ha : offsetAligned off = true) (pad : BitVec 2) (v : Word) :
    (decodeRead off).OwnsWord (0b01#2 ++ pad ++ off ++ v) ∧
    (decodeWrite off v).OwnsWord (0b10#2 ++ pad ++ off ++ v) := by
  have hmask := window_and_mask ha
  rcases offset_cases ha with hlt | h | h | h | h | h | h | h
  · obtain ⟨hr, hw⟩ := decodeAccess_register hlt
    have hown := decodeRegister_ownsWord (off.extractLsb' 2 4) pad v
    rw [registerOffset_of_lt ha hlt] at hown
    rwa [hr, hw v]
  · obtain ⟨hr, hw⟩ := decodeAccess_rsvd040 h
    have ho := EncodesInRow.off040 off h
    rw [hr, hw v]
    exact ⟨.access 0xFC3#12 _ h rfl rfl rfl ho, .access 0xFC3#12 _ h rfl rfl rfl ho⟩
  · obtain ⟨hr, hw⟩ := decodeAccess_rsvd080 h
    have ho := EncodesInRow.off080 off h
    rw [hr, hw v]
    exact ⟨.access 0xF83#12 _ h rfl rfl rfl ho, .access 0xF83#12 _ h rfl rfl rfl ho⟩
  · obtain ⟨hr, hw⟩ := decodeAccess_rsvd100 h
    have ho := EncodesInRow.off100 off h
    rw [hr, hw v]
    exact ⟨.access 0xF03#12 _ h rfl rfl rfl ho, .access 0xF03#12 _ h rfl rfl rfl ho⟩
  · obtain ⟨hr, hw⟩ := decodeAccess_rsvd200 h
    have ho := EncodesInRow.off200 off h
    rw [hr, hw v]
    exact ⟨.access 0xE03#12 _ h rfl rfl rfl ho, .access 0xE03#12 _ h rfl rfl rfl ho⟩
  · obtain ⟨hr, hw⟩ := decodeAccess_rxraw h
    rw [h] at hmask
    rw [hr, hw v]
    exact ⟨.access 0xC03#12 _ rfl rfl rfl rfl hmask, .access 0xC03#12 _ rfl rfl rfl rfl hmask⟩
  · obtain ⟨hr, hw⟩ := decodeAccess_rxpay h
    rw [h] at hmask
    rw [hr, hw v]
    exact ⟨.access 0xC03#12 _ rfl rfl rfl rfl hmask, .access 0xC03#12 _ rfl rfl rfl rfl hmask⟩
  · obtain ⟨hr, hw⟩ := decodeAccess_txbuf h
    rw [h] at hmask
    rw [hr, hw v]
    exact ⟨.access 0xC03#12 _ rfl rfl rfl rfl hmask, .access 0xC03#12 _ rfl rfl rfl rfl hmask⟩

/-- An answer that needs an aligned offset is the operation, and the offset is aligned. -/
theorem aligned_of_ok {off : Offset} {i j : Instr} {e : DecodeError}
    (h : (if offsetAligned off then Except.ok j else .error e) = .ok i) : offsetAligned off = true ∧ j = i := by
  split at h
  · exact ⟨‹_›, Except.ok.inj h⟩
  · exact nomatch h

theorem decodeWord_ownsWord {w : StepWord} {i : Instr} (h : decodeWord w = .ok i) : i.OwnsWord w := by
  rcases stepWord_cases w with ⟨evt, x, data, rfl⟩ | ⟨pad, off, v, rfl⟩ | ⟨pad, off, v, rfl⟩ | hkind
  · rw [decodeWord_event] at h
    exact decodeEvent_ownsWord x h
  · rw [decodeWord_read] at h
    obtain ⟨ha, rfl⟩ := aligned_of_ok h
    exact (decodeAccess_ownsWord ha pad v).1
  · rw [decodeWord_write] at h
    obtain ⟨ha, rfl⟩ := aligned_of_ok h
    exact (decodeAccess_ownsWord ha pad v).2
  · simp [decodeWord, hkind] at h

/-! ## What lies in a row decodes to it -/

/-- A value that agrees with a pattern under a mask agrees with it in every field that the mask covers. -/
theorem field_eq_of_and_eq {n start len : Nat} {x m p : BitVec n} (h : x &&& m = p)
    (hm : m.extractLsb' start len = BitVec.allOnes len) : x.extractLsb' start len = p.extractLsb' start len := by
  rw [← h, BitVec.extractLsb'_and, hm, BitVec.and_allOnes]

/-- A word in a row that masks KIND and EVT is the event of the row's pattern. -/
theorem decode_of_eventRow {r : Row} {w : StepWord} (h : r.holds w = true) (hm : r.mask = 0xFF0000000000#48)
    (hp : wordKind r.pattern = 0b00#2) : decode (.word w) = decodeEvent (wordEvt r.pattern) (wordData w) := by
  have hand : w &&& 0xFF0000000000#48 = r.pattern := hm ▸ beq_iff_eq.1 h
  have hkind : wordKind w = wordKind r.pattern := field_eq_of_and_eq hand rfl
  have hevt : wordEvt w = wordEvt r.pattern := field_eq_of_and_eq hand rfl
  obtain ⟨evt, x, data, rfl⟩ := exists_event_of_kind (hkind.trans hp)
  rw [decode, decodeWord_event, ← hevt, wordEvt_event, wordData_event]

/-- The row masks KIND and the offset's bits 1:0, and its pattern has that KIND and 00 there. -/
structure Row.TakesAccesses (r : Row) (kind : BitVec 2) : Prop where
  kindMask : wordKind r.mask = BitVec.allOnes 2
  kindPattern : wordKind r.pattern = kind
  alignMask : (wordOffset r.mask).extractLsb' 0 2 = BitVec.allOnes 2
  alignPattern : (wordOffset r.pattern).extractLsb' 0 2 = 0#2

section AccessRows
variable {r : Row} {w : StepWord} {kind : BitVec 2}

/-- A word in a row of accesses is an aligned access that agrees with the row's pattern in the offset and the data. -/
theorem Row.TakesAccesses.exists_access (hr : r.TakesAccesses kind) (h : r.holds w = true) :
    ∃ (pad : BitVec 2) (off : Offset) (v : Word), w = kind ++ pad ++ off ++ v ∧ offsetAligned off = true ∧
      off &&& wordOffset r.mask = wordOffset r.pattern ∧ v &&& wordWdata r.mask = wordWdata r.pattern := by
  have hand : w &&& r.mask = r.pattern := beq_iff_eq.1 h
  obtain ⟨pad, off, v, rfl⟩ := exists_access_of_kind ((field_eq_of_and_eq hand hr.kindMask).trans hr.kindPattern)
  have hoff : off &&& wordOffset r.mask = wordOffset r.pattern := by
    have hfield := congrArg wordOffset hand
    rwa [wordOffset, BitVec.extractLsb'_and, ← wordOffset, wordOffset_access] at hfield
  have hdata : v &&& wordWdata r.mask = wordWdata r.pattern := by
    have hfield := congrArg wordWdata hand
    rwa [wordWdata, BitVec.extractLsb'_and, ← wordWdata, wordWdata_access] at hfield
  exact ⟨pad, off, v, rfl, beq_iff_eq.2 ((field_eq_of_and_eq hoff hr.alignMask).trans hr.alignPattern), hoff, hdata⟩

/-- A word in a row of reads decodes to an operation of the row when every offset under the row's mask does. -/
theorem Row.TakesAccesses.decode_read (hr : r.TakesAccesses 0b01#2) (h : r.holds w = true)
    (hrow : ∀ off, off &&& wordOffset r.mask = wordOffset r.pattern → (decodeRead off).row = r) :
    ∃ i, decode (.word w) = .ok i ∧ i.row = r := by
  obtain ⟨pad, off, v, rfl, ha, hoff, -⟩ := hr.exists_access h
  exact ⟨_, (decodeWord_read pad off v).trans (if_pos ha), hrow off hoff⟩

/-- A word in a row of writes decodes to an operation of the row when every offset and data under the row's mask do. -/
theorem Row.TakesAccesses.decode_write (hr : r.TakesAccesses 0b10#2) (h : r.holds w = true)
    (hrow : ∀ off v, off &&& wordOffset r.mask = wordOffset r.pattern → v &&& wordWdata r.mask = wordWdata r.pattern →
      (decodeWrite off v).row = r) : ∃ i, decode (.word w) = .ok i ∧ i.row = r := by
  obtain ⟨pad, off, v, rfl, ha, hoff, hdata⟩ := hr.exists_access h
  exact ⟨_, (decodeWord_write pad off v).trans (if_pos ha), hrow off v hoff hdata⟩

/-- In a row that masks the whole offset a read is of the pattern's offset. -/
theorem Row.TakesAccesses.decode_registerRead (hr : r.TakesAccesses 0b01#2) (h : r.holds w = true)
    (hm : wordOffset r.mask = BitVec.allOnes 12) (hrow : (decodeRead (wordOffset r.pattern)).row = r) :
    ∃ i, decode (.word w) = .ok i ∧ i.row = r :=
  hr.decode_read h fun off hoff => by rwa [← hoff, hm, BitVec.and_allOnes] at hrow

/-- In a row that masks the whole offset a write is of the pattern's offset. -/
theorem Row.TakesAccesses.decode_registerWrite (hr : r.TakesAccesses 0b10#2) (h : r.holds w = true)
    (hm : wordOffset r.mask = BitVec.allOnes 12)
    (hrow : ∀ v, v &&& wordWdata r.mask = wordWdata r.pattern → (decodeWrite (wordOffset r.pattern) v).row = r) :
    ∃ i, decode (.word w) = .ok i ∧ i.row = r :=
  hr.decode_write h fun off v hoff hdata => by
    have hv := hrow v hdata
    rwa [← hoff, hm, BitVec.and_allOnes] at hv

end AccessRows

/-- Two command codes that agree under the mask of one's row are of the same row (R95). -/
theorem commandRow_eq_of_and_eq : ∀ c code : BitVec 4,
    let r := (decodeCmd (0#28 ++ c)).row
    code &&& (wordWdata r.mask).extractLsb' 0 4 = (wordWdata r.pattern).extractLsb' 0 4 →
      (decodeCmd (0#28 ++ code)).row = r := by decide

/-- The rows of the commands take writes of offset 0. -/
theorem commandRow_takesAccesses (c : BitVec 4) :
    (decodeCmd (0#28 ++ c)).row.TakesAccesses 0b10#2 ∧
    wordOffset (decodeCmd (0#28 ++ c)).row.mask = BitVec.allOnes 12 ∧
    wordOffset (decodeCmd (0#28 ++ c)).row.pattern = 0#12 := by
  have hrows : ∀ c : BitVec 4,
      let r := (decodeCmd (0#28 ++ c)).row
      wordKind r.mask = BitVec.allOnes 2 ∧ wordKind r.pattern = 0b10#2 ∧ wordOffset r.mask = BitVec.allOnes 12 ∧
        wordOffset r.pattern = 0#12 := by decide
  obtain ⟨hkm, hkp, hom, hop⟩ := hrows c
  exact ⟨⟨hkm, hkp, by rw [hom]; rfl, by rw [hop]; rfl⟩, hom, hop⟩

/-- A word in the row of a command code decodes to a command of that row. -/
theorem decode_of_commandRow (c : BitVec 4) {w : StepWord} (h : (decodeCmd (0#28 ++ c)).row.holds w = true) :
    ∃ i, decode (.word w) = .ok i ∧ i.row = (decodeCmd (0#28 ++ c)).row := by
  obtain ⟨haccess, hmask, hzero⟩ := commandRow_takesAccesses c
  refine haccess.decode_registerWrite h hmask fun v hdata => ?_
  rw [hzero]
  refine (decodeCmd_row v).trans (commandRow_eq_of_and_eq c _ ?_)
  rw [← BitVec.extractLsb'_and, hdata]

/-! The masks of the reserved ranges (R63) and of the windows select what the decoder tests. -/

theorem offsetIn_of_and_rsvd200 : ∀ off : Offset, off &&& 0xE03#12 = 0x200#12 → offsetIn 0x200 0x3FC off = true := by
  decide +kernel

theorem offsetIn_of_and_rsvd100 : ∀ off : Offset, off &&& 0xF03#12 = 0x100#12 → offsetIn 0x100 0x1FC off = true := by
  decide +kernel

theorem offsetIn_of_and_rsvd080 : ∀ off : Offset, off &&& 0xF83#12 = 0x080#12 → offsetIn 0x080 0x0FC off = true := by
  decide +kernel

theorem offsetIn_of_and_rsvd040 : ∀ off : Offset, off &&& 0xFC3#12 = 0x040#12 → offsetIn 0x040 0x07C off = true := by
  decide +kernel

theorem exists_decode_of_row_holds {w : StepWord} {j : Instr} (hbits : j.row.bits = 48) (h : j.row.holds w = true) :
    ∃ i, decode (.word w) = .ok i ∧ i.row = j.row := by
  cases j <;> dsimp only [Instr.row] at hbits h ⊢
  case reset | rxByte | tick | lineAccept | lineIdle => exact ⟨_, decode_of_eventRow h rfl rfl, rfl⟩
  case rdCmd | rdStatus | rdIrqen | rdErrcause | rdTxdata | rdCrc | rdCrcdata | rdGuard | rdHold | rdRxlen | rdPaylen
      | rdTxlen | rdState | rdAcclen | rdTxptr | rdTxcnt =>
    exact Row.TakesAccesses.decode_registerRead ⟨rfl, rfl, rfl, rfl⟩ h rfl rfl
  case wrStatus | wrIrqen | wrErrcause | wrTxdata | wrCrc | wrCrcdata | wrGuard | wrHold | wrRxlen | wrPaylen | wrTxlen
      | wrState | wrAcclen | wrTxptr | wrTxcnt =>
    exact Row.TakesAccesses.decode_registerWrite ⟨rfl, rfl, rfl, rfl⟩ h rfl fun _ _ => rfl
  case nop => exact decode_of_commandRow 0x0#4 h
  case txOpen => exact decode_of_commandRow 0x1#4 h
  case txClose => exact decode_of_commandRow 0x2#4 h
  case txCloseCrc => exact decode_of_commandRow 0x3#4 h
  case txGo => exact decode_of_commandRow 0x4#4 h
  case rxRelease => exact decode_of_commandRow 0x5#4 h
  case cmdRsvd6to7 => exact decode_of_commandRow 0x6#4 h
  case cmdRsvd8to15 => exact decode_of_commandRow 0x8#4 h
  case wireStart | wireEnd | wireEscape | wireData => exact absurd hbits (by decide)
  case' rdRsvd200 | rdRsvd100 | rdRsvd080 | rdRsvd040 | rdRxraw | rdRxpay | rdTxbuf =>
    refine Row.TakesAccesses.decode_read ⟨rfl, rfl, rfl, rfl⟩ h fun off ho => ?_
  case' wrRsvd200 | wrRsvd100 | wrRsvd080 | wrRsvd040 | wrRxraw | wrRxpay | wrTxbuf =>
    refine Row.TakesAccesses.decode_write ⟨rfl, rfl, rfl, rfl⟩ h fun off v ho _ => ?_
  case rdRsvd200 => exact congrArg Instr.row (decodeAccess_rsvd200 (offsetIn_of_and_rsvd200 off ho)).1
  case rdRsvd100 => exact congrArg Instr.row (decodeAccess_rsvd100 (offsetIn_of_and_rsvd100 off ho)).1
  case rdRsvd080 => exact congrArg Instr.row (decodeAccess_rsvd080 (offsetIn_of_and_rsvd080 off ho)).1
  case rdRsvd040 => exact congrArg Instr.row (decodeAccess_rsvd040 (offsetIn_of_and_rsvd040 off ho)).1
  case wrRsvd200 => exact congrArg Instr.row ((decodeAccess_rsvd200 (offsetIn_of_and_rsvd200 off ho)).2 v)
  case wrRsvd100 => exact congrArg Instr.row ((decodeAccess_rsvd100 (offsetIn_of_and_rsvd100 off ho)).2 v)
  case wrRsvd080 => exact congrArg Instr.row ((decodeAccess_rsvd080 (offsetIn_of_and_rsvd080 off ho)).2 v)
  case wrRsvd040 => exact congrArg Instr.row ((decodeAccess_rsvd040 (offsetIn_of_and_rsvd040 off ho)).2 v)
  case rdRxraw => exact congrArg Instr.row (decodeAccess_rxraw (field_eq_of_and_eq ho rfl)).1
  case rdRxpay => exact congrArg Instr.row (decodeAccess_rxpay (field_eq_of_and_eq ho rfl)).1
  case rdTxbuf => exact congrArg Instr.row (decodeAccess_txbuf (field_eq_of_and_eq ho rfl)).1
  case wrRxraw => exact congrArg Instr.row ((decodeAccess_rxraw (field_eq_of_and_eq ho rfl)).2 v)
  case wrRxpay => exact congrArg Instr.row ((decodeAccess_rxpay (field_eq_of_and_eq ho rfl)).2 v)
  case wrTxbuf => exact congrArg Instr.row ((decodeAccess_txbuf (field_eq_of_and_eq ho rfl)).2 v)

end Sys2Proof

namespace Sys2Proof.Proofs

open Sys2Proof Sys2Proof.Machine

/-- Settles O57, by KIND and by the range of the offset. -/
theorem decodedWordLiesInItsRow : Obligations.DecodedWordLiesInItsRow :=
  fun _ _ h => decodeWord_ownsWord h

/-- Settles O58, row by row: the fields under a row's mask are the ones that its operation is decoded from. -/
theorem rowsOfTheOpcodeTableAreDisjoint : Obligations.RowsOfTheOpcodeTableAreDisjoint :=
  fun _ _ hbits h => exists_decode_of_row_holds hbits h

end Sys2Proof.Proofs
end

section
/-!
SUPPORT. The codec's functions over whole sequences (40_codec.md R130 to R137): stuffing and its inverse, the unit that
unstuffs byte by byte, and the CRC.
-/

namespace Sys2Proof.Machine

/-! ## Stuffing (R130, R133) -/

/-- The bytes that are stuffed, by their values. -/
theorem special_iff_toNat (b : Byte) :
    (b.toNat = 0xAC ∨ b.toNat = 0xAD ∨ b.toNat = 0xAE) ↔ (b = 0xAC#8 ∨ b = 0xAD#8 ∨ b = 0xAE#8) := by
  simp only [BitVec.toNat_eq, BitVec.toNat_ofNat]

theorem stuffByte_eq (b : Byte) :
    stuffByte b = if b.toNat = 0xAC ∨ b.toNat = 0xAD ∨ b.toNat = 0xAE then [0xAE#8, b ^^^ 0x80#8] else [b] := by
  simp only [special_iff_toNat]
  split
  · next h => exact stuffByte_special b h
  · next h => exact stuffByte_plain b h

theorem length_stuff_ge (p : List Byte) : p.length ≤ (stuff p).length := by
  induction p with
  | nil => exact Nat.le_refl 0
  | cons b p ih =>
    have hb := length_stuffByte_pos b
    simp only [stuff_cons, List.length_append, List.length_cons]
    omega

theorem length_stuff_le (p : List Byte) : (stuff p).length ≤ 2 * p.length := by
  induction p with
  | nil => exact Nat.le_refl 0
  | cons b p ih =>
    have hb := length_stuffByte_le b
    simp only [stuff_cons, List.length_append, List.length_cons]
    omega

theorem stuff_eq_self {p : List Byte} (h : ∀ b ∈ p, b ≠ 0xAC#8 ∧ b ≠ 0xAD#8 ∧ b ≠ 0xAE#8) : stuff p = p := by
  induction p with
  | nil => rfl
  | cons b p ih =>
    obtain ⟨hb, hp⟩ := List.forall_mem_cons.1 h
    rw [stuff_cons, stuffByte_plain b (by simpa only [not_or] using hb), ih hp, List.singleton_append]

/-! ## Reading stuffed bytes back (R134, R135) -/

/-- What is stuffed for one byte is read as one code. -/
theorem unstuff_stuffByte_append (b : Byte) (rest : List Byte) :
    unstuff (stuffByte b ++ rest) = (b :: (unstuff rest).1, (unstuff rest).2) := by
  by_cases h : b = 0xAC#8 ∨ b = 0xAD#8 ∨ b = 0xAE#8
  · rw [stuffByte_special b h]
    simp [unstuff_escape]
  · have hescape : b ≠ 0xAE#8 := fun hb => h (.inr (.inr hb))
    rw [stuffByte_plain b h, List.singleton_append, unstuff_plain b rest hescape]

theorem unstuff_stuff (p : List Byte) : unstuff (stuff p) = (p, false) := by
  induction p with
  | nil => rfl
  | cons b p ih => rw [stuff_cons, unstuff_stuffByte_append, ih]

/-- An ESCAPE that starts a code, with the byte after it. -/
theorem escapesStuffed_escape (c : Byte) (rest : List Byte) :
    escapesStuffed (0xAE#8 :: c :: rest) = ((c == 0x2C#8 || c == 0x2D#8 || c == 0x2E#8) && escapesStuffed rest) := by
  simp [escapesStuffed]

/-- Any other byte is a code of its own. -/
theorem escapesStuffed_plain (b : Byte) (rest : List Byte) (h : b ≠ 0xAE#8) :
    escapesStuffed (b :: rest) = escapesStuffed rest := by
  cases rest <;> simp [escapesStuffed, h]

theorem escapesStuffed_stuffByte_append (b : Byte) (rest : List Byte) :
    escapesStuffed (stuffByte b ++ rest) = escapesStuffed rest := by
  by_cases h : b = 0xAC#8 ∨ b = 0xAD#8 ∨ b = 0xAE#8
  · rw [stuffByte_special b h, List.cons_append, List.singleton_append, escapesStuffed_escape]
    rcases h with rfl | rfl | rfl <;> rfl
  · have hescape : b ≠ 0xAE#8 := fun hb => h (.inr (.inr hb))
    rw [stuffByte_plain b h, List.singleton_append, escapesStuffed_plain b rest hescape]

theorem escapesStuffed_stuff (p : List Byte) : escapesStuffed (stuff p) = true := by
  induction p with
  | nil => rfl
  | cons b p ih => rw [stuff_cons, escapesStuffed_stuffByte_append, ih]

/-! ## Unstuffing as the bytes arrive (R136) -/

/-- Between two codes, the unit takes an ESCAPE and keeps it in mind. -/
theorem Unstuffer.push_escape (out : List Byte) :
    Unstuffer.push ⟨out, false⟩ escapeByte = ⟨out, true⟩ := rfl

/-- Between two codes, any other byte goes to the payload. -/
theorem Unstuffer.push_plain (out : List Byte) {b : Byte} (h : b ≠ escapeByte) :
    Unstuffer.push ⟨out, false⟩ b = ⟨out ++ [b], false⟩ := by
  simp [Unstuffer.push, h]

/-- Behind an ESCAPE, any byte goes to the payload unmasked. -/
theorem Unstuffer.push_escaped (out : List Byte) (b : Byte) :
    Unstuffer.push ⟨out, true⟩ b = ⟨out ++ [b ^^^ escapeMask], false⟩ := rfl

/-- Between two codes, the unit goes on as `decode` goes on. -/
theorem Unstuffer.foldl_push (interior out : List Byte) :
    interior.foldl Unstuffer.push ⟨out, false⟩ = ⟨out ++ (unstuff interior).1, (unstuff interior).2⟩ := by
  fun_induction unstuff interior generalizing out with
  | case1 => simp
  | case2 => simp [Unstuffer.push_escape]
  | case3 b h => simp [Unstuffer.push_plain out h]
  | case4 c rest ih =>
    rw [List.foldl_cons, List.foldl_cons, Unstuffer.push_escape, Unstuffer.push_escaped, ih, List.append_assoc,
      List.singleton_append]
  | case5 b c rest h ih =>
    rw [List.foldl_cons, Unstuffer.push_plain out h, ih, List.append_assoc, List.singleton_append]

/-! ## The CRC (R131, R137) -/

/-- One shift, in integer arithmetic: the bit shifted out is the value's parity. -/
theorem crcShift_eq (v : Byte) :
    crcShift v =
      if v.toNat % 2 = 1 then BitVec.ofNat 8 (v.toNat / 2) ^^^ 0x8C#8 else BitVec.ofNat 8 (v.toNat / 2) := by
  have hshift : v >>> 1 = BitVec.ofNat 8 (v.toNat / 2) := by
    refine BitVec.eq_of_toNat_eq ?_
    rw [BitVec.toNat_ushiftRight, BitVec.toNat_ofNat, Nat.shiftRight_eq_div_pow]
    omega
  have hbit : v.getLsbD 0 = decide (v.toNat % 2 = 1) := by simp [BitVec.getLsbD, Nat.testBit_zero]
  simp only [crcShift, hshift, hbit, decide_eq_true_eq]

theorem crcShifts_eq_iterate (n : Nat) (v : Byte) : crcShifts n v = crcShift^[n] v := by
  induction n generalizing v with
  | zero => rfl
  | succ n ih => exact ih (crcShift v)

/-- A CRC that takes its own value in ends at 0. -/
theorem crc8Step_self (c : Byte) : crc8Step c c = 0x00#8 := by
  rw [crc8Step_xor, BitVec.xor_self]
  decide

end Sys2Proof.Machine

namespace Sys2Proof.Proofs

open Sys2Proof Sys2Proof.Machine

/-- Settles O16, from the length of what one byte becomes. -/
theorem stuffingAndFrameLength : Obligations.StuffingAndFrameLength := by
  refine ⟨stuffByte_eq, fun p => ⟨rfl, ?_⟩⟩
  have hge := length_stuff_ge p
  have hle := length_stuff_le p
  rw [length_encodeFrame]
  omega

/-- Settles O17: the interior is the stuffed payload, which is read back one code at a time. -/
theorem decodingAFrameGivesThePayload : Obligations.DecodingAFrameGivesThePayload := by
  intro p interior h
  rw [encodeFrame_interior p interior h, unstuff_stuff]

/-- Settles O18: the interior is the stuffed payload, in which each byte's code is as it must be. -/
theorem frameInteriorHoldsNoDelimiter : Obligations.FrameInteriorHoldsNoDelimiter := by
  intro p interior h
  rw [encodeFrame_interior p interior h]
  exact ⟨fun c hc => not_or.1 (stuff_no_delimiter p c hc), escapesStuffed_stuff p⟩

/-- Settles O19, from the unit's state between two codes. -/
theorem streamingUnstufferComputesDecode : Obligations.StreamingUnstufferComputesDecode := by
  intro interior
  rw [Unstuffer.start, Unstuffer.foldl_push, List.nil_append]

/-- Settles O20: a step depends on the XOR of its arguments, which is 0 in each clause. -/
theorem crcResidueIsZero : Obligations.CrcResidueIsZero := by
  have hzero : crc8Step 0x00#8 0x00#8 = 0x00#8 := crc8Step_self 0x00#8
  refine ⟨crc8_nil, hzero, fun bs => ?_, fun p => ?_⟩
  · rw [crc8, List.foldl_cons, hzero, ← crc8]
  · rw [crc8_append_singleton, crc8Step_self]

/-- Settles O21: the eight iterations are one function applied eight times. -/
theorem crcIsEightConditionalShiftsForEachByte : Obligations.CrcIsEightConditionalShiftsForEachByte := by
  refine ⟨fun c b => ?_, crc8_nil, crc8_append_singleton⟩
  simp only [← crcShift_eq]
  rw [List.foldl_const, List.length_range, crc8Step, crcShifts_eq_iterate]

/-- Settles O28, from the length of the stuffed payload and of the stuffed checksum. -/
theorem payloadCapacity : Obligations.PayloadCapacity := by
  intro p
  refine ⟨?_, fun hplain => ?_⟩
  · have hle := length_stuff_le (p ++ [crc8 p])
    rw [List.length_append, List.length_singleton] at hle
    rw [length_encodeFrame]
    omega
  · have hself := stuff_eq_self hplain
    refine ⟨by rw [length_encodeFrame, hself], ?_⟩
    rw [length_encodeFrame, stuff_append, hself, stuff_cons, stuff_nil, List.append_nil, List.length_append,
      length_stuffByte]
    split <;> omega

end Sys2Proof.Proofs
end

section
/-!
SUPPORT. The host's operations of the Frame Codec (40_codec.md R140 to R143, R146, R147), each as its next state, and the
runs of inputs that build a frame (R144).
-/

namespace Sys2Proof.Machine

/-! ## Bytes put behind a frame -/

theorem writeAt_append (buf : List Byte) (pos : Nat) (first second : List Byte) :
    writeAt buf pos (first ++ second) = writeAt (writeAt buf pos first) (pos + first.length) second := by
  induction first generalizing buf pos with
  | nil => rfl
  | cons b first ih =>
    rw [List.cons_append, writeAt_cons, ih, writeAt_cons, List.length_cons, Nat.add_right_comm, Nat.add_assoc]

theorem TxFrame.put_put (f : TxFrame) (txb txb' : TxbState) (first second : List Byte) :
    (f.put txb first).put txb' second = f.put txb' (first ++ second) := by
  simp [TxFrame.put, writeAt_append, Nat.add_assoc]

/-- The stuffed form of a byte, written out. -/
theorem writeAt_stuffByte (buf : List Byte) (pos : Nat) (b : Byte) :
    writeAt buf pos (stuffByte b) =
      if b = 0xAC#8 ∨ b = 0xAD#8 ∨ b = 0xAE#8 then (buf.set pos 0xAE#8).set (pos + 1) (b ^^^ 0x80#8)
      else buf.set pos b := by
  split
  · next h => rw [stuffByte_special b h]; rfl
  · next h => rw [stuffByte_plain b h]; rfl

/-- The stuffed form of a byte with an END behind it, written out. -/
theorem writeAt_stuffByte_end (buf : List Byte) (pos : Nat) (b : Byte) :
    writeAt buf pos (stuffByte b ++ [endByte]) =
      if b = 0xAC#8 ∨ b = 0xAD#8 ∨ b = 0xAE#8 then
        ((buf.set pos 0xAE#8).set (pos + 1) (b ^^^ 0x80#8)).set (pos + 2) 0xAD#8
      else (buf.set pos b).set (pos + 1) 0xAD#8 := by
  rw [writeAt_append, writeAt_stuffByte, length_stuffByte]
  split <;> rfl

theorem length_stuffByte_end (b : Byte) :
    (stuffByte b ++ [endByte]).length = if b = 0xAC#8 ∨ b = 0xAD#8 ∨ b = 0xAE#8 then 3 else 2 := by
  rw [List.length_append, length_stuffByte]
  split <;> rfl

/-! ## Write data (R97) -/

theorem wdataByte_eq (wdata : Word) : wdataByte wdata = BitVec.ofNat 8 (wdata.toNat % 256) := by
  refine BitVec.eq_of_toNat_eq ?_
  simp [wdataByte]

@[simp] theorem wdataByte_byteWdata (b : Byte) : wdataByte (byteWdata b) = b := by
  refine BitVec.eq_of_toNat_eq ?_
  simp only [wdataByte, byteWdata, BitVec.extractLsb'_toNat, BitVec.toNat_setWidth, Nat.shiftRight_zero]
  omega

/-! ## Each operation's next state -/

/-- The first two rejections of a write that needs an open frame, in their order (R303). -/
theorem State.withOpenFrame_rejects (s accepted : State) :
    (s.drv.txEngine ≠ .idle → (Host.Outcome.next (s.withOpenFrame accepted) : Result) = .next
      { s with host := { cmdErr := true, errcause := .txBusy, irqen := s.host.irqen } }) ∧
    (s.drv.txEngine = .idle → s.tx.txb ≠ .opened → (Host.Outcome.next (s.withOpenFrame accepted) : Result) = .next
      { s with host := { cmdErr := true, errcause := .txNotOpen, irqen := s.host.irqen } }) := by
  refine ⟨fun h => congrArg _ (s.withOpenFrame_busy accepted h), fun hi ho => congrArg _ ?_⟩
  rcases s.withOpenFrame_cases accepted with ⟨hi', -⟩ | ⟨-, -, e⟩ | ⟨-, ho', -⟩
  · exact absurd hi hi'
  · rw [e, State.reject_eq]
  · exact absurd ho' ho

/-- The state after TX_OPEN with the driver in IDLE: a frame that has only its START (R140). -/
def State.freshFrame (s : State) : State :=
  { s with
    tx := { txb := .opened, txbuf := s.tx.txbuf.set 0 startByte, txlen := 1 },
    drv := { s.drv with txptr := 0 },
    crc := 0x00#8 }

/-- The state after a payload has gone into an open frame that has room for it (R141). -/
def State.withPayload (payload : List Byte) (s : State) : State :=
  { s with tx := s.tx.put .opened (stuff payload), crc := payload.foldl crc8Step s.crc }

/-- The state after an open frame has been closed behind a trailer: no byte, or the checksum (R142, R143). -/
def State.closeFrame (trailer : List Byte) (s : State) : State :=
  { s with tx := s.tx.put .closed (stuff trailer ++ [endByte]) }

theorem State.withPayload_nil {s : State} (ho : s.tx.txb = .opened) : s.withPayload [] = s := by
  simp [State.withPayload, TxFrame.put, ← ho]

theorem State.withPayload_cons (b : Byte) (payload : List Byte) (s : State) :
    (s.withPayload [b]).withPayload payload = s.withPayload (b :: payload) := by
  simp [State.withPayload, TxFrame.put_put]

section Operations
variable {s : State}

theorem exec_txOpen (arg : BitVec 28) (hi : s.drv.txEngine = .idle) : exec (.txOpen arg) s = .next s.freshFrame :=
  congrArg _ (if_neg (not_not.2 hi))

/-- A byte that leaves room for the END is accepted. -/
theorem exec_wrTxdata (wdata : Word) (hi : s.drv.txEngine = .idle) (ho : s.tx.txb = .opened)
    (hfit : s.tx.txlen + (stuffByte (wdataByte wdata)).length ≤ s.cfg.txDepth - 1) :
    exec (.wrTxdata wdata) s = .next (s.withPayload [wdataByte wdata]) := by
  refine congrArg _ ((s.withOpenFrame_open _ hi ho).trans ((if_neg (not_lt.2 hfit)).trans ?_))
  simp [State.withPayload]

/-- A byte that does not is rejected. -/
theorem exec_wrTxdata_full (wdata : Word) (hi : s.drv.txEngine = .idle) (ho : s.tx.txb = .opened)
    (hfull : ¬ s.tx.txlen + (stuffByte (wdataByte wdata)).length ≤ s.cfg.txDepth - 1) :
    exec (.wrTxdata wdata) s = .next (s.reject .txFull) :=
  congrArg _ ((s.withOpenFrame_open _ hi ho).trans (if_pos (not_le.1 hfull)))

theorem exec_txClose (arg : BitVec 28) (hi : s.drv.txEngine = .idle) (ho : s.tx.txb = .opened) :
    exec (.txClose arg) s = .next (s.closeFrame []) :=
  congrArg _ (s.withOpenFrame_open _ hi ho)

/-- A checksum that fits with the END is accepted. -/
theorem exec_txCloseCrc (arg : BitVec 28) (hi : s.drv.txEngine = .idle) (ho : s.tx.txb = .opened)
    (hfit : s.tx.txlen + (stuffByte s.crc ++ [endByte]).length ≤ s.cfg.txDepth) :
    exec (.txCloseCrc arg) s = .next (s.closeFrame [s.crc]) := by
  rw [List.length_append, List.length_singleton, ← Nat.add_assoc] at hfit
  refine congrArg _ ((s.withOpenFrame_open _ hi ho).trans ((if_neg (not_lt.2 hfit)).trans ?_))
  simp [State.closeFrame]

/-- A checksum that does not is rejected. -/
theorem exec_txCloseCrc_full (arg : BitVec 28) (hi : s.drv.txEngine = .idle) (ho : s.tx.txb = .opened)
    (hfull : ¬ s.tx.txlen + (stuffByte s.crc ++ [endByte]).length ≤ s.cfg.txDepth) :
    exec (.txCloseCrc arg) s = .next (s.reject .txFull) := by
  rw [List.length_append, List.length_singleton, ← Nat.add_assoc] at hfull
  exact congrArg _ ((s.withOpenFrame_open _ hi ho).trans (if_pos (not_le.1 hfull)))

end Operations

/-! ## Runs that leave the ports alone to account for -/

/-- `t` is `s`, except for the ports. -/
def State.SameUnits (s t : State) : Prop := t = { s with port := t.port }

/-- An operation with the same effect whatever the ports hold leads from the units of `s` to those of `u`. -/
theorem Runs.operation {i : Instr} {s u : State} (hw : i.wellFormed = true)
    (h : ∀ port, exec i { s with port := port } = .next { u with port := port }) :
    Runs s.SameUnits [encode i] u.SameUnits := by
  refine .single (decode_encode hw) fun t rest ht => ⟨{ u with port := (t.beginOp i rest).port }, ?_, rfl⟩
  rw [← h, ht]
  rfl

/-- A WR CRCDATA for each byte of a sequence runs the CRC over it (R147). -/
theorem Runs.wrCrcdata (bs : List Byte) (s : State) :
    Runs s.SameUnits (bs.map fun b => encode (.wrCrcdata (byteWdata b)))
      { s with crc := bs.foldl crc8Step s.crc }.SameUnits := by
  induction bs generalizing s with
  | nil => exact .nil
  | cons b bs ih =>
    have hfirst : Runs s.SameUnits [encode (.wrCrcdata (byteWdata b))] { s with crc := crc8Step s.crc b }.SameUnits :=
      .operation rfl fun port => by simp only [exec, execWrCrcdata, wdataByte_byteWdata]
    exact hfirst.append (ih _)

/-! ## Building a frame (R144) -/

section Build
variable {s : State}

/-- A WR TXDATA for each byte of a payload that leaves room for the END. -/
theorem Runs.txdata (payload : List Byte) (hi : s.drv.txEngine = .idle) (ho : s.tx.txb = .opened)
    (hfit : s.tx.txlen + (stuff payload).length ≤ s.cfg.txDepth - 1) :
    Runs s.SameUnits (pseudoTxdata payload) (s.withPayload payload).SameUnits := by
  induction payload generalizing s with
  | nil => rw [State.withPayload_nil ho]; exact .nil
  | cons b payload ih =>
    rw [stuff_cons, List.length_append] at hfit
    have hfirst : Runs s.SameUnits [encode (.wrTxdata (byteWdata b))] (s.withPayload [b]).SameUnits := by
      refine .operation rfl fun port => (exec_wrTxdata (s := { s with port := port }) _ hi ho ?_).trans ?_ <;>
        rw [wdataByte_byteWdata]
      · dsimp only; omega
      · rfl
    rw [← State.withPayload_cons]
    have hrest : (s.withPayload [b]).tx.txlen + (stuff payload).length ≤ s.cfg.txDepth - 1 := by
      simp only [State.withPayload, TxFrame.put_txlen, stuff_cons, stuff_nil, List.append_nil]
      omega
    exact hfirst.append (ih hi rfl hrest)

/-- The state after a frame of a payload and a trailer has been built. -/
def State.built (payload trailer : List Byte) (s : State) : State :=
  (s.freshFrame.withPayload payload).closeFrame trailer

/-- The build with a close that appends the trailer. -/
theorem Runs.build {close : Input} (payload trailer : List Byte) (hi : s.drv.txEngine = .idle)
    (hfit : (encodeFrame (payload ++ trailer)).length ≤ s.cfg.txDepth)
    (hclose : Runs (s.freshFrame.withPayload payload).SameUnits [close] (s.built payload trailer).SameUnits) :
    Runs s.SameUnits (encode (.txOpen 0#28) :: (pseudoTxdata payload ++ [close])) (s.built payload trailer).SameUnits := by
  rw [length_encodeFrame, stuff_append, List.length_append] at hfit
  have hopen : Runs s.SameUnits [encode (.txOpen 0#28)] s.freshFrame.SameUnits :=
    .operation rfl fun _ => exec_txOpen _ hi
  have hdata : Runs s.freshFrame.SameUnits (pseudoTxdata payload) (s.freshFrame.withPayload payload).SameUnits :=
    .txdata payload hi rfl (by simp only [State.freshFrame]; omega)
  exact hopen.append (hdata.append hclose)

/-- TX_CLOSE behind a payload (R142). -/
theorem Runs.build_txClose (payload : List Byte) (hi : s.drv.txEngine = .idle) :
    Runs (s.freshFrame.withPayload payload).SameUnits [encode (.txClose 0#28)] (s.built payload []).SameUnits :=
  .operation rfl fun _ => exec_txClose _ hi rfl

/-- TX_CLOSE_CRC behind a payload, whose CRC the generator then holds (R143). -/
theorem Runs.build_txCloseCrc (payload : List Byte) (hi : s.drv.txEngine = .idle)
    (hfit : (encodeFrame (payload ++ [crc8 payload])).length ≤ s.cfg.txDepth) :
    Runs (s.freshFrame.withPayload payload).SameUnits [encode (.txCloseCrc 0#28)]
      (s.built payload [crc8 payload]).SameUnits := by
  refine .operation rfl fun _ => exec_txCloseCrc _ hi rfl ?_
  rw [length_encodeFrame, stuff_append, stuff_cons, stuff_nil, List.append_nil, List.length_append] at hfit
  change 1 + (stuff payload).length + (stuffByte (crc8 payload) ++ [endByte]).length ≤ s.cfg.txDepth
  rw [List.length_append, List.length_singleton]
  omega

/-- What the build puts behind the START is one run of bytes. -/
theorem State.built_tx (payload trailer : List Byte) (s : State) :
    (s.built payload trailer).tx = s.freshFrame.tx.put .closed (stuff (payload ++ trailer) ++ [endByte]) := by
  simp [State.built, State.closeFrame, State.withPayload, TxFrame.put_put]

theorem State.built_txlen (payload trailer : List Byte) (s : State) :
    (s.built payload trailer).tx.txlen = (encodeFrame (payload ++ trailer)).length := by
  rw [State.built_tx, TxFrame.put_txlen, Nat.add_comm]
  rfl

/-- The build leaves the encoded frame in the buffer, which it fits. -/
theorem State.built_frame (payload trailer : List Byte) (hsize : s.tx.txbuf.length = s.cfg.txDepth)
    (hfit : (encodeFrame (payload ++ trailer)).length ≤ s.cfg.txDepth) :
    (s.built payload trailer).tx.txbuf.take (s.built payload trailer).tx.txlen = encodeFrame (payload ++ trailer) := by
  have hroom : 1 + (stuff (payload ++ trailer) ++ [endByte]).length ≤ (s.tx.txbuf.set 0 startByte).length := by
    rw [length_encodeFrame] at hfit
    simp only [List.length_append, List.length_singleton, List.length_set] at *
    omega
  have hstart : (s.tx.txbuf.set 0 startByte).take 1 = [startByte] :=
    take_succ_set s.tx.txbuf 0 startByte (by rw [List.length_set] at hroom; omega)
  calc
    (s.built payload trailer).tx.txbuf.take (s.built payload trailer).tx.txlen
      = (s.tx.txbuf.set 0 startByte).take 1 ++ (stuff (payload ++ trailer) ++ [endByte]) := by
        rw [State.built_tx]; exact take_writeAt _ _ _ hroom
    _ = encodeFrame (payload ++ trailer) := by rw [hstart]; rfl

/-- A run that builds a frame the buffer has room for leaves that frame, closed, and touches the transmit buffer, `txptr` and
the CRC alone. -/
theorem Runs.build_result {xs : List Input} {payload trailer : List Byte} (h : Inv s) (hin : s.port.inputs = [])
    (hfit : (encodeFrame (payload ++ trailer)).length ≤ s.cfg.txDepth)
    (hrun : Runs s.SameUnits xs (s.built payload trailer).SameUnits) :
    ∃ t, Machine.runInputs xs s = .next t ∧
      t.tx.txb = .closed ∧ t.tx.txbuf.take t.tx.txlen = encodeFrame (payload ++ trailer) ∧
      t.tx.txlen = (encodeFrame (payload ++ trailer)).length ∧ t.crc = crc8 payload ∧
      t.host = s.host ∧ t.rx = s.rx ∧ t.held = s.held ∧ t.drv = { s.drv with txptr := 0 } := by
  obtain ⟨t, ht, hunits⟩ := hrun.runInputs hin rfl
  rw [hunits] at ht
  exact ⟨_, ht, rfl, State.built_frame payload trailer h.txbufSize hfit, State.built_txlen payload trailer s, rfl, rfl,
    rfl, rfl, rfl⟩

end Build

end Sys2Proof.Machine

namespace Sys2Proof.Proofs

open Sys2Proof Sys2Proof.Machine

/-- Settles O22, from what TX_OPEN tests. -/
theorem txOpenStartsAFreshFrame : Obligations.TxOpenStartsAFreshFrame :=
  fun s arg => ⟨exec_txOpen arg, fun h => congrArg _ ((if_pos h).trans (s.reject_eq .txBusy))⟩

/-- Settles O23: the room that the byte needs is the length of its stuffed form. -/
theorem txdataStuffsAByteOrIsRejected : Obligations.TxdataStuffsAByteOrIsRejected := by
  intro s wdata b stuffed size
  have hsize : (stuffByte b).length = size := length_stuffByte b
  refine ⟨fun hi ho hfit => ?_, (s.withOpenFrame_rejects _).1, (s.withOpenFrame_rejects _).2, fun hi ho hfull => ?_⟩
  · rw [exec_wrTxdata wdata hi ho (hsize ▸ hfit)]
    simp only [State.withPayload, TxFrame.put, stuff_cons, stuff_nil, List.append_nil, writeAt_stuffByte,
      length_stuffByte]
    rfl
  · exact exec_wrTxdata_full wdata hi ho (hsize ▸ hfull)

/-- Settles O24, from the checks that the writes to an open frame share. -/
theorem txCloseAppendsEndOrIsRejected : Obligations.TxCloseAppendsEndOrIsRejected :=
  fun s arg => ⟨exec_txClose arg, s.withOpenFrame_rejects _⟩

/-- Settles O25: the room that the close needs is the length of the stuffed checksum and END. -/
theorem txCloseCrcAppendsTheChecksumOrIsRejected : Obligations.TxCloseCrcAppendsTheChecksumOrIsRejected := by
  intro s arg stuffed size
  have hsize : (stuffByte s.crc ++ [endByte]).length = size := length_stuffByte_end s.crc
  refine ⟨fun hi ho hfit => ?_, (s.withOpenFrame_rejects _).1, (s.withOpenFrame_rejects _).2, fun hi ho hfull => ?_⟩
  · rw [exec_txCloseCrc arg hi ho (hsize ▸ hfit)]
    simp only [State.closeFrame, TxFrame.put, stuff_cons, stuff_nil, List.append_nil, writeAt_stuffByte_end,
      length_stuffByte_end]
    rfl
  · exact exec_txCloseCrc_full arg hi ho (hsize ▸ hfull)

/-- Settles O26: each write by its operand, and the run by the sequence's bytes. -/
theorem crcWritesSetOrAdvanceTheCrc : Obligations.CrcWritesSetOrAdvanceTheCrc := by
  refine ⟨fun s wdata => ?_, fun s bs hin => ?_⟩
  · rw [← wdataByte_eq]
    exact ⟨rfl, rfl⟩
  · have hset : Runs s.SameUnits [encode (.wrCrc 0#32)] { s with crc := 0x00#8 }.SameUnits :=
      .operation rfl fun _ => rfl
    obtain ⟨t, ht, hunits⟩ := (hset.append (.wrCrcdata bs _)).runInputs hin rfl
    rw [hunits] at ht
    exact ⟨_, ht, rfl, rfl, rfl, rfl, rfl, rfl⟩

/-- Settles O27: both builds open a frame and put the payload into it, and differ in the trailer that their close appends. -/
theorem buildLeavesTheEncodedFrame : Obligations.BuildLeavesTheEncodedFrame := by
  intro s p hinv hin hi
  refine ⟨fun hfit => ?_, fun hfit => ?_⟩
  · exact Runs.build_result hinv hin hfit (.build p [crc8 p] hi hfit (.build_txCloseCrc p hi hfit))
  · have hfit' : (encodeFrame (p ++ [])).length ≤ s.cfg.txDepth := by rwa [List.append_nil]
    obtain ⟨t, ht, hclosed, hframe, hlen, -, hunits⟩ :=
      Runs.build_result hinv hin hfit' (.build p [] hi hfit' (.build_txClose p hi))
    rw [List.append_nil] at hframe hlen
    exact ⟨t, ht, hclosed, hframe, hlen, hunits⟩

end Sys2Proof.Proofs
end

section
/-!
SUPPORT. What a received byte does to the accumulator and the held frame as whole next states (41_accumulator.md R182 to
R190): each outcome of an END, what an operation without a byte leaves, and runs of received bytes, whole frames among them.
-/

namespace Sys2Proof.Machine

/-! ## One byte in a frame (R183, R184) -/

theorem addrMatch_eq_decide (b : Byte) : addrMatch b = decide (b = 0x14#8 ∨ b = 0x20#8) := by
  rw [Bool.eq_iff_iff, addrMatch_iff, decide_eq_true_iff]

/-- The accumulator after a byte other than START, field by field. -/
theorem Accumulator.advance_eq (depth : Nat) (b : Byte) (a : Accumulator) :
    a.advance depth b =
      { rxState := a.rxState
        rxAwait := false
        rxMatch := if a.rxAwait then addrMatch b else a.rxMatch
        rxOvf := if a.accLen < depth then a.rxOvf else true
        acc := if a.accLen < depth then a.acc.set a.accLen b else a.acc
        accLen := if a.accLen < depth then a.accLen + 1 else a.accLen
        rxActivity := true
        rxToolong := a.rxToolong } := by
  by_cases hroom : a.accLen < depth <;> cases hawait : a.rxAwait <;>
    simp [Accumulator.advance, Accumulator.active, Accumulator.append, Accumulator.capture, hroom, hawait]

/-! ## The four outcomes of an END (R185) -/

section EndFrame
variable (s : State) {a : Accumulator}

theorem State.endFrame_of_unmatched (hm : a.rxMatch = false) :
    ({ s with rx := a } : State).endFrame = { s with rx := a.close } := by
  simp [State.endFrame, hm]

theorem State.endFrame_of_overflowed (hm : a.rxMatch = true) (ho : a.rxOvf = true) :
    ({ s with rx := a } : State).endFrame = { s with rx := { a.close with rxToolong := true } } := by
  simp [State.endFrame, State.deliverFrame, hm, ho, Accumulator.close]

theorem State.endFrame_of_frameReady (hm : a.rxMatch = true) (ho : a.rxOvf = false)
    (hr : s.held.frameReady = true) :
    ({ s with rx := a } : State).endFrame = { s with rx := a.close, held := { s.held with rxOverrun := true } } := by
  simp [State.endFrame, State.deliverFrame, hm, ho, hr]

theorem State.endFrame_delivers (hm : a.rxMatch = true) (ho : a.rxOvf = false)
    (hr : s.held.frameReady = false) :
    ({ s with rx := a } : State).endFrame = { s with rx := a.close, held := s.held.deliver a.acc a.accLen } := by
  simp [State.endFrame, State.deliverFrame, hm, ho, hr]

end EndFrame

/-- An END in the address position is no address, so what it closes is addressed only by an earlier byte (R193). -/
theorem Accumulator.advance_end_rxMatch (depth : Nat) (a : Accumulator) :
    (a.advance depth endByte).rxMatch = (a.rxMatch && !a.rxAwait) := by
  rw [Accumulator.advance_rxMatch, addrMatch_endByte]
  cases a.rxAwait <;> simp

theorem Accumulator.advance_rxOvf_eq (depth : Nat) (b : Byte) (a : Accumulator) :
    (a.advance depth b).rxOvf = (a.rxOvf || !decide (a.accLen < depth)) := by
  rw [Accumulator.advance_rxOvf]
  split <;> simp_all

/-- The accumulator that an END leaves: in IDLE, with the END behind the bytes where it fits. -/
theorem Accumulator.close_advance (depth : Nat) (b : Byte) (a : Accumulator) :
    (a.advance depth b).close =
      { rxState := .idle, rxAwait := false, rxMatch := false, rxOvf := false,
        acc := if a.accLen < depth then a.acc.set a.accLen b else a.acc, accLen := 0,
        rxActivity := true, rxToolong := a.rxToolong } := by
  rw [Accumulator.advance_eq]
  rfl

/-! ## Delivery (R185) -/

/-- In a frame whose address has matched, the address has been taken. -/
theorem AccumulatorInv.addressed {depth : Nat} {a : Accumulator} (h : AccumulatorInv depth a) (hf : a.rxState = .inFrame)
    (hm : a.rxMatch = true) : a.Addressed := by
  obtain ⟨-, -, -, hawait⟩ := h.inFrame hf
  exact ⟨hf, Bool.eq_false_iff.2 fun hw => absurd (hm.symm.trans (hawait hw).2) (by decide), hm⟩

/-- The END of an addressed frame that fits, with no frame held, delivers it with the END. -/
theorem FittingFrame.rxByte_end_delivers {s : State} (h : FittingFrame s) (hr : s.held.frameReady = false) :
    s.rxByte endByte =
      { s with
        rx := (s.rx.advance s.cfg.rxDepth endByte).close,
        held := s.held.deliver (s.rx.acc.set s.rx.accLen endByte) (s.rx.accLen + 1) } := by
  obtain ⟨ha, hovf, hlt⟩ := h
  have hovf' : (s.rx.advance s.cfg.rxDepth endByte).rxOvf = false := by simp [hlt, hovf]
  rw [s.rxByte_end ha.1, s.endFrame_delivers (ha.advance_rxMatch _ _) hovf' hr]
  simp [hlt]

section Deliver
variable {f : HeldFrame} {acc acc' : List Byte} {n : Nat}

/-- Delivery reads the first `n` bytes of the accumulator alone. -/
theorem HeldFrame.deliver_congr (h : acc.take n = acc'.take n) : f.deliver acc n = f.deliver acc' n := by
  simp only [HeldFrame.deliver, h, interiorOf_eq_of_take_eq h]

/-- The accumulated bytes are copied, and the rest of RXRAW stays. -/
theorem HeldFrame.deliver_rxraw (hacc : n ≤ acc.length) (hraw : n ≤ f.rxraw.length) :
    (f.deliver acc n).rxraw.take n = acc.take n ∧ (f.deliver acc n).rxraw.drop n = f.rxraw.drop n := by
  have hlen : (acc.take n).length = n := List.length_take_of_le hacc
  have htake := take_writeAt (acc.take n) f.rxraw 0 (by omega)
  have hdrop := drop_writeAt (acc.take n) f.rxraw 0 (by omega)
  rw [Nat.zero_add, hlen] at htake hdrop
  exact ⟨htake, hdrop⟩

/-- The decoded interior is the payload, and the rest of RXPAY stays. -/
theorem HeldFrame.deliver_rxpay (hpay : n ≤ f.rxpay.length) :
    (f.deliver acc n).rxpay.take (f.deliver acc n).paylen = (unstuff (interiorOf acc n)).1 ∧
      (f.deliver acc n).rxpay.drop (f.deliver acc n).paylen = f.rxpay.drop (f.deliver acc n).paylen := by
  have hdecoded : (unstuff (interiorOf acc n)).1.length ≤ n - 2 :=
    (length_unstuff_le _).trans (length_interiorOf_le acc n)
  have htake := take_writeAt (unstuff (interiorOf acc n)).1 f.rxpay 0 (by omega)
  have hdrop := drop_writeAt (unstuff (interiorOf acc n)).1 f.rxpay 0 (by omega)
  rw [Nat.zero_add] at htake hdrop
  exact ⟨htake, hdrop⟩

/-- The interior of a frame whose END has just been put behind its `n` bytes. -/
theorem interiorOf_set (buf : List Byte) (n : Nat) (b : Byte) : interiorOf (buf.set n b) (n + 1) = (buf.take n).drop 1 := by
  rw [interiorOf, Nat.add_sub_cancel, List.take_set_of_le (Nat.le_refl n)]

end Deliver

/-! ## Operations that receive a byte, and those that do not (R188) -/

theorem exec_of_received {i : Instr} {b : Byte} (h : i.received = some b) (s : State) :
    exec i s = .next (s.rxByte b) := by
  cases i <;> simp only [Instr.received, Option.some.injEq, reduceCtorEq] at h <;> exact h ▸ rfl

/-- Without a byte, an operation but RESET leaves the accumulator, except for the status bits that WR STATUS clears. -/
theorem exec_rx_of_not_received {i : Instr} (h : i.received = none) (hreset : i ≠ .reset) (s : State) :
    ∃ t, exec i s = .next t ∧
      (t.rx = s.rx ∨
        ∃ m activity toolong, i = .wrStatus m ∧ t.rx = { s.rx with rxActivity := activity, rxToolong := toolong }) := by
  cases i
  case reset => exact absurd rfl hreset
  case rxByte | wireStart | wireEnd | wireEscape | wireData => exact absurd h nofun
  case wrStatus m => exact ⟨_, rfl, .inr ⟨m, _, _, rfl, rfl⟩⟩
  case wrTxdata | txCloseCrc =>
    refine ⟨_, rfl, .inl ?_⟩
    rw [State.withOpenFrame_rx]
    split <;> rfl
  case txClose => exact ⟨_, rfl, .inl (by rw [State.withOpenFrame_rx]; rfl)⟩
  case txOpen | lineAccept | lineIdle => exact ⟨_, rfl, .inl (by split <;> rfl)⟩
  case txGo =>
    refine ⟨_, rfl, .inl ?_⟩
    split
    · rfl
    · split <;> rfl
  all_goals exact ⟨_, rfl, .inl rfl⟩

/-- A byte in a frame that is no delimiter leaves the frame in progress and the bytes before it. -/
theorem State.rxByte_keeps_frame {s : State} {b : Byte} (hf : s.rx.rxState = .inFrame) (hs : b ≠ startByte)
    (he : b ≠ endByte) :
    (s.rxByte b).rx.rxState = .inFrame ∧ s.rx.accLen ≤ (s.rxByte b).rx.accLen ∧
      ∀ k, k < s.rx.accLen → (s.rxByte b).rx.acc[k]? = s.rx.acc[k]? := by
  rw [s.rxByte_data b hf hs he]
  refine ⟨(Accumulator.advance_rxState ..).trans hf, ?_, fun k hk => Accumulator.getElem?_advance b hk⟩
  dsimp only
  rw [Accumulator.advance_accLen]
  split <;> omega

/-! ## Reception reads the accumulator and the held frame alone (R189) -/

theorem State.endFrame_otherUnits (s : State) (tx : TxFrame) (crc : Byte) (drv : Driver) (host : HostRegs)
    (port : Ports) :
    ({ s with tx := tx, crc := crc, drv := drv, host := host, port := port } : State).endFrame =
      { s with tx := tx, crc := crc, drv := drv, host := host, port := port,
               rx := s.endFrame.rx, held := s.endFrame.held } := by
  let u : State := { s with tx := tx, crc := crc, drv := drv, host := host, port := port }
  rcases s.endFrame_cases with ⟨hm, e⟩ | ⟨hm, ho, e⟩ | ⟨hm, ho, hr, e⟩ | ⟨hm, ho, hr, e⟩ <;> rw [e]
  · exact u.endFrame_of_unmatched hm
  · exact u.endFrame_of_overflowed hm ho
  · exact u.endFrame_of_frameReady hm ho hr
  · exact u.endFrame_delivers hm ho hr

theorem State.rxByte_otherUnits (s : State) (b : Byte) (tx : TxFrame) (crc : Byte) (drv : Driver) (host : HostRegs)
    (port : Ports) :
    ({ s with tx := tx, crc := crc, drv := drv, host := host, port := port } : State).rxByte b =
      { s with tx := tx, crc := crc, drv := drv, host := host, port := port,
               rx := (s.rxByte b).rx, held := (s.rxByte b).held } := by
  let u : State := { s with tx := tx, crc := crc, drv := drv, host := host, port := port }
  rcases s.rxByte_cases b with ⟨rfl, e⟩ | ⟨hi, hs, e⟩ | ⟨hf, hs, he, e⟩ | ⟨hf, rfl, e⟩ <;> rw [e]
  · exact u.rxByte_start
  · exact u.rxByte_idle b hi hs
  · exact u.rxByte_data b hf hs he
  · exact (u.rxByte_end hf).trans
      (State.endFrame_otherUnits { s with rx := s.rx.advance s.cfg.rxDepth endByte } tx crc drv host port)

theorem State.rxByte_eq (s : State) (b : Byte) :
    s.rxByte b = { s with rx := (s.rxByte b).rx, held := (s.rxByte b).held } :=
  s.rxByte_otherUnits b s.tx s.crc s.drv s.host s.port

theorem State.rxByte_withPort (s : State) (b : Byte) (port : Ports) :
    ({ s with port := port } : State).rxByte b = { s.rxByte b with port := port } :=
  (s.rxByte_otherUnits b s.tx s.crc s.drv s.host port).trans
    (congrArg (fun t : State => { t with port := port }) (s.rxByte_eq b).symm)

/-! ## Runs of received bytes -/

/-- The state after a sequence of received bytes. -/
def State.rxBytes (bs : List Byte) (s : State) : State := bs.foldl (fun t b => t.rxByte b) s

theorem State.rxBytes_append (xs ys : List Byte) (s : State) : s.rxBytes (xs ++ ys) = (s.rxBytes xs).rxBytes ys :=
  List.foldl_append

theorem pseudoRxseq_append (xs ys : List Byte) : pseudoRxseq (xs ++ ys) = pseudoRxseq xs ++ pseudoRxseq ys :=
  List.map_append

/-- `RXSEQ` is the arrival of its bytes (R102). -/
theorem Runs.rxseq (bs : List Byte) (s : State) : Runs s.SameUnits (pseudoRxseq bs) (s.rxBytes bs).SameUnits := by
  induction bs generalizing s with
  | nil => exact .nil
  | cons b bs ih =>
    have hfirst : Runs s.SameUnits [encode (.rxByte b)] (s.rxByte b).SameUnits :=
      .operation rfl fun port => congrArg _ (s.rxByte_withPort b port)
    exact hfirst.append (ih _)

theorem runInputs_rxseq (bs : List Byte) {s : State} (hin : s.port.inputs = []) :
    ∃ port, runInputs (pseudoRxseq bs) s = .next { s.rxBytes bs with port := port } := by
  obtain ⟨t, ht, hunits⟩ := (Runs.rxseq bs s).runInputs hin rfl
  exact ⟨t.port, ht.trans (congrArg _ hunits)⟩

theorem Inv.rxBytes {s : State} (h : Inv s) (bs : List Byte) : Inv (s.rxBytes bs) := by
  induction bs generalizing s with
  | nil => exact h
  | cons b bs ih => exact ih (h.rxByte b)

/-! ## Bytes that a frame in progress collects -/

/-- The accumulator after a sequence of bytes other than START has come in a frame. -/
def Accumulator.collect (depth : Nat) (bs : List Byte) (a : Accumulator) : Accumulator :=
  bs.foldl (fun a b => a.advance depth b) a

section Collect
variable {depth : Nat} {a : Accumulator} {b : Byte} {bs : List Byte}

theorem Accumulator.collect_cons (depth : Nat) (b : Byte) (bs : List Byte) (a : Accumulator) :
    a.collect depth (b :: bs) = (a.advance depth b).collect depth bs := rfl

theorem Accumulator.collect_concat (depth : Nat) (b : Byte) (bs : List Byte) (a : Accumulator) :
    a.collect depth (bs ++ [b]) = (a.collect depth bs).advance depth b := List.foldl_append

@[simp] theorem Accumulator.collect_rxState : (a.collect depth bs).rxState = a.rxState := by
  induction bs generalizing a with
  | nil => rfl
  | cons b bs ih => rw [Accumulator.collect_cons, ih, Accumulator.advance_rxState]

@[simp] theorem Accumulator.collect_rxToolong : (a.collect depth bs).rxToolong = a.rxToolong := by
  induction bs generalizing a with
  | nil => rfl
  | cons b bs ih => rw [Accumulator.collect_cons, ih, Accumulator.advance_rxToolong]

/-- Once the address has been taken, no later byte of the frame changes the match. -/
theorem Accumulator.collect_rxMatch (h : a.rxAwait = false) : (a.collect depth bs).rxMatch = a.rxMatch := by
  induction bs generalizing a with
  | nil => rfl
  | cons b bs ih => simp [Accumulator.collect_cons, ih, h]

/-- The first byte after START is the address (R184). -/
theorem Accumulator.collect_rxMatch_of_await (h : a.rxAwait = true) :
    (a.collect depth (b :: bs)).rxMatch = addrMatch b := by
  rw [Accumulator.collect_cons, Accumulator.collect_rxMatch (Accumulator.advance_rxAwait ..),
    Accumulator.advance_rxMatch, if_pos h]

/-- Bytes that fit are written behind the others, and mark no overflow (R183). -/
theorem Accumulator.collect_of_fits (h : a.accLen + bs.length ≤ depth) :
    (a.collect depth bs).acc = writeAt a.acc a.accLen bs ∧
      (a.collect depth bs).accLen = a.accLen + bs.length ∧ (a.collect depth bs).rxOvf = a.rxOvf := by
  induction bs generalizing a with
  | nil => exact ⟨rfl, rfl, rfl⟩
  | cons b bs ih =>
    rw [List.length_cons] at h
    have hlt : a.accLen < depth := by omega
    have hnew : (a.advance depth b).accLen = a.accLen + 1 := by simp [hlt]
    obtain ⟨hacc, hlen, hovf⟩ := ih (a := a.advance depth b) (by omega)
    rw [Accumulator.collect_cons, hacc, hlen, hovf, hnew, writeAt_cons]
    refine ⟨?_, ?_, ?_⟩
    · simp [hlt]
    · simp; omega
    · simp [hlt]

end Collect

/-- Bytes in a frame that are no delimiters are collected, and nothing else happens. -/
theorem State.rxBytes_data {s : State} {bs : List Byte} (hf : s.rx.rxState = .inFrame)
    (hbs : ∀ b ∈ bs, ¬ isDelimiter b) : s.rxBytes bs = { s with rx := s.rx.collect s.cfg.rxDepth bs } := by
  induction bs generalizing s with
  | nil => rfl
  | cons b bs ih =>
    obtain ⟨hb, hbs⟩ := List.forall_mem_cons.1 hbs
    obtain ⟨hs, he⟩ := not_or.1 hb
    have hfirst := s.rxByte_data b hf hs he
    have hrest := ih (s := s.rxByte b) (by rw [hfirst]; exact (Accumulator.advance_rxState ..).trans hf) hbs
    rw [hfirst] at hrest
    exact (congrArg (State.rxBytes bs) hfirst).trans hrest

/-- A START and bytes that hold no delimiter. -/
theorem State.rxBytes_start (s : State) {bs : List Byte} (hbs : ∀ b ∈ bs, ¬ isDelimiter b) :
    s.rxBytes (startByte :: bs) = { s with rx := s.rx.active.startFrame.collect s.cfg.rxDepth bs } :=
  (congrArg (State.rxBytes bs) s.rxByte_start).trans (State.rxBytes_data rfl hbs)

/-! ## A whole frame -/

/-- The accumulator after the bytes of `encode(P)`, before its END closes it. -/
def Accumulator.wholeFrame (depth : Nat) (p : List Byte) (a : Accumulator) : Accumulator :=
  a.active.startFrame.collect depth (stuff p ++ [endByte])

/-- The bytes of `encode(P)`: START opens a fresh frame, the interior is collected, END ends it. -/
theorem State.rxBytes_encodeFrame (s : State) (p : List Byte) :
    s.rxBytes (encodeFrame p) = ({ s with rx := s.rx.wholeFrame s.cfg.rxDepth p } : State).endFrame := by
  rw [encodeFrame, ← List.cons_append, State.rxBytes_append, s.rxBytes_start (stuff_no_delimiter p),
    Accumulator.wholeFrame, Accumulator.collect_concat]
  exact State.rxByte_end _ Accumulator.collect_rxState

/-- The raw byte after START is the payload's first byte when that is an address, and no address when it is not. -/
theorem stuff_end_first (p : List Byte) :
    ∃ b bs, stuff p ++ [endByte] = b :: bs ∧ (addrMatch b = true ↔ p[0]? = some 0x14#8 ∨ p[0]? = some 0x20#8) := by
  cases p with
  | nil => exact ⟨endByte, [], rfl, by simp⟩
  | cons c p =>
    by_cases hc : c = 0xAC#8 ∨ c = 0xAD#8 ∨ c = 0xAE#8
    · refine ⟨escapeByte, (c ^^^ escapeMask) :: (stuff p ++ [endByte]), by simp [stuffByte_special c hc], ?_⟩
      rcases hc with rfl | rfl | rfl <;> simp [addrMatch, escapeByte]
    · exact ⟨c, stuff p ++ [endByte], by simp [stuffByte_plain c hc], by simp [addrMatch_iff]⟩

section WholeFrame
variable {depth : Nat} {a : Accumulator} {p : List Byte}

theorem Accumulator.wholeFrame_rxMatch :
    (a.wholeFrame depth p).rxMatch = true ↔ p[0]? = some 0x14#8 ∨ p[0]? = some 0x20#8 := by
  obtain ⟨b, bs, hfirst, hb⟩ := stuff_end_first p
  rw [Accumulator.wholeFrame, hfirst, Accumulator.collect_rxMatch_of_await rfl, hb]

@[simp] theorem Accumulator.wholeFrame_rxActivity : (a.wholeFrame depth p).rxActivity = true := by
  rw [Accumulator.wholeFrame, Accumulator.collect_concat, Accumulator.advance_rxActivity]

@[simp] theorem Accumulator.wholeFrame_rxToolong : (a.wholeFrame depth p).rxToolong = a.rxToolong := by
  simp [Accumulator.wholeFrame]

/-- A frame that fits stands in the accumulator from its first byte on. -/
theorem Accumulator.wholeFrame_of_fits (hsize : a.acc.length = depth) (hfit : (encodeFrame p).length ≤ depth) :
    (a.wholeFrame depth p).acc.take (encodeFrame p).length = encodeFrame p ∧
      (a.wholeFrame depth p).accLen = (encodeFrame p).length ∧ (a.wholeFrame depth p).rxOvf = false := by
  have hlen : 1 + (stuff p ++ [endByte]).length = (encodeFrame p).length := by simp [encodeFrame]; omega
  obtain ⟨hacc, haccLen, hovf⟩ :=
    Accumulator.collect_of_fits (a := a.active.startFrame) (bs := stuff p ++ [endByte]) (hlen.trans_le hfit)
  refine ⟨?_, haccLen.trans hlen, hovf⟩
  have htake := take_writeAt (encodeFrame p) a.acc 0 (by omega)
  rw [Nat.zero_add] at htake
  rw [Accumulator.wholeFrame, hacc]
  exact htake

end WholeFrame

/-- A frame to no address of the block is discarded: the accumulator alone has changed (R189). -/
theorem State.rxBytes_unaddressed (s : State) {p : List Byte} (h14 : p[0]? ≠ some 0x14#8) (h20 : p[0]? ≠ some 0x20#8) :
    s.rxBytes (encodeFrame p) = { s with rx := (s.rx.wholeFrame s.cfg.rxDepth p).close } := by
  have hmatch : (s.rx.wholeFrame s.cfg.rxDepth p).rxMatch = false :=
    Bool.eq_false_iff.2 (mt Accumulator.wholeFrame_rxMatch.1 (not_or.2 ⟨h14, h20⟩))
  rw [s.rxBytes_encodeFrame, s.endFrame_of_unmatched hmatch]

/-- A frame to an address of the block that fits, with no frame held, is delivered, whatever stood in the accumulator. -/
theorem State.rxBytes_delivers {s : State} {p : List Byte} (h : Inv s) (hfree : s.held.frameReady = false)
    (haddr : p[0]? = some 0x14#8 ∨ p[0]? = some 0x20#8) (hfit : (encodeFrame p).length ≤ s.cfg.rxDepth) :
    s.rxBytes (encodeFrame p) =
      { s with
        rx := (s.rx.wholeFrame s.cfg.rxDepth p).close,
        held := s.held.deliver (encodeFrame p) (encodeFrame p).length } := by
  obtain ⟨htake, hlen, hovf⟩ := Accumulator.wholeFrame_of_fits h.accSize hfit
  rw [s.rxBytes_encodeFrame, s.endFrame_delivers (Accumulator.wholeFrame_rxMatch.2 haddr) hovf hfree]
  rw [hlen, HeldFrame.deliver_congr (htake.trans List.take_length.symm)]

/-- What the delivery of `encode(P)` leaves in the held frame: the frame and its payload, untruncated. -/
theorem HeldFrame.deliver_encodeFrame {f : HeldFrame} {p : List Byte} (hraw : (encodeFrame p).length ≤ f.rxraw.length)
    (hpay : (encodeFrame p).length ≤ f.rxpay.length) :
    (f.deliver (encodeFrame p) (encodeFrame p).length).rxraw.take (encodeFrame p).length = encodeFrame p ∧
      (f.deliver (encodeFrame p) (encodeFrame p).length).rxpay.take p.length = p ∧
      (f.deliver (encodeFrame p) (encodeFrame p).length).paylen = p.length ∧
      (f.deliver (encodeFrame p) (encodeFrame p).length).frameTrunc = false := by
  have hinterior : interiorOf (encodeFrame p) (encodeFrame p).length = stuff p :=
    interiorOf_eq _ _ startByte endByte _ List.take_length (Nat.le_refl _)
  have hdecode : unstuff (interiorOf (encodeFrame p) (encodeFrame p).length) = (p, false) := by
    rw [hinterior, unstuff_stuff]
  have hpaylen : (f.deliver (encodeFrame p) (encodeFrame p).length).paylen = p.length := by
    simp only [HeldFrame.deliver, hdecode]
  obtain ⟨htake, -⟩ := HeldFrame.deliver_rxraw (f := f) (Nat.le_refl (encodeFrame p).length) hraw
  obtain ⟨hpayload, -⟩ := HeldFrame.deliver_rxpay (acc := encodeFrame p) hpay
  rw [hpaylen, hdecode] at hpayload
  exact ⟨htake.trans List.take_length, hpayload, hpaylen, congrArg Prod.snd hdecode⟩

end Sys2Proof.Machine

namespace Sys2Proof.Proofs

open Sys2Proof Sys2Proof.Machine

/-- Settles O6, from what RX_BYTE does with a START and with noise. -/
theorem startOpensAFreshFrameAndNoiseIsDiscarded : Obligations.StartOpensAFreshFrameAndNoiseIsDiscarded :=
  ⟨fun s => congrArg _ s.rxByte_start, fun s b hi hb => congrArg _ (s.rxByte_idle b hi hb)⟩

/-- Settles O7: such a byte advances the accumulator and does nothing else. -/
theorem frameByteIsAppendedAndAddressCaptured : Obligations.FrameByteIsAppendedAndAddressCaptured := by
  intro s b hf hs he
  refine congrArg _ ((s.rxByte_data b hf hs he).trans ?_)
  rw [Accumulator.advance_eq, addrMatch_eq_decide, hf]

/-- Settles O8, by the four outcomes of an END. -/
theorem endByteClosesTheFrame : Obligations.EndByteClosesTheFrame := by
  refine ⟨fun s hf => ?_, fun s hinv hf hm ho hlt hfree => ?_⟩
  · intro fits addressed overflowed closed
    have hend : exec (.rxByte 0xAD#8) s =
        .next ({ s with rx := s.rx.advance s.cfg.rxDepth endByte } : State).endFrame := congrArg _ (s.rxByte_end hf)
    have hmatch : (s.rx.advance s.cfg.rxDepth endByte).rxMatch = addressed := Accumulator.advance_end_rxMatch _ _
    have hovf : (s.rx.advance s.cfg.rxDepth endByte).rxOvf = overflowed := Accumulator.advance_rxOvf_eq _ _ _
    have hclose : (s.rx.advance s.cfg.rxDepth endByte).close = closed := Accumulator.close_advance _ _ _
    rw [hend, ← hclose]
    refine ⟨fun ha => ?_, fun ha hlong => ?_, fun ha hshort hready => ?_⟩
    · rw [s.endFrame_of_unmatched (hmatch.trans ha)]
    · rw [s.endFrame_of_overflowed (hmatch.trans ha) (hovf.trans hlong)]
    · rw [s.endFrame_of_frameReady (hmatch.trans ha) (hovf.trans hshort) hready]
  · have hend := FittingFrame.rxByte_end_delivers ⟨hinv.accumulator.addressed hf hm, ho, hlt⟩ hfree
    have hacc := hinv.accSize
    have hraw := hinv.rxrawSize
    have hpay := hinv.rxpaySize
    obtain ⟨hrawTake, hrawDrop⟩ := HeldFrame.deliver_rxraw (f := s.held) (acc := s.rx.acc.set s.rx.accLen endByte)
      (n := s.rx.accLen + 1) (by rw [List.length_set]; omega) (by omega)
    obtain ⟨hpayTake, hpayDrop⟩ := HeldFrame.deliver_rxpay (f := s.held) (acc := s.rx.acc.set s.rx.accLen endByte)
      (n := s.rx.accLen + 1) (by omega)
    have hinterior := interiorOf_set s.rx.acc s.rx.accLen endByte
    rw [take_succ_set _ _ _ (by omega)] at hrawTake
    refine ⟨s.held.deliver (s.rx.acc.set s.rx.accLen endByte) (s.rx.accLen + 1), ?_, rfl, rfl, rfl, hrawTake, hrawDrop,
      ?_, ?_, hpayDrop⟩
    · rw [Accumulator.close_advance, if_pos hlt] at hend
      exact congrArg _ hend
    · rw [hpayTake, ← hinterior]; rfl
    · rw [← hinterior]; rfl

/-- Settles O9, by whether the operation receives a byte. -/
theorem onlyDelimitersEndAFrame : Obligations.OnlyDelimitersEndAFrame := by
  intro i s t hreset he
  cases hb : i.received with
  | none =>
    obtain ⟨u, hu, hrx⟩ := exec_rx_of_not_received hb hreset s
    obtain rfl : u = t := Host.Outcome.next.inj (hu.symm.trans he)
    rcases hrx with hrx | ⟨m, activity, toolong, rfl, hrx⟩ <;> rw [hrx]
    · exact ⟨fun _ => ⟨rfl, fun _ => rfl⟩, fun hf _ _ => ⟨hf, Nat.le_refl _, fun _ _ => rfl⟩⟩
    · exact ⟨fun _ => ⟨rfl, fun hne => absurd rfl (hne m)⟩, fun hf _ _ => ⟨hf, Nat.le_refl _, fun _ _ => rfl⟩⟩
  | some b =>
    obtain rfl : s.rxByte b = t := Host.Outcome.next.inj ((exec_of_received hb s).symm.trans he)
    exact ⟨nofun, fun hf hs he => State.rxByte_keeps_frame hf (by simpa using hs) (by simpa using he)⟩

/-- Settles O11, from the meaning of RX_RELEASE. -/
theorem rxReleaseFreesTheHeldFrame : Obligations.RxReleaseFreesTheHeldFrame := fun _ _ => rfl

/-- Settles O12: a received byte sees the accumulator and the held frame alone, and a frame without a match is discarded. -/
theorem receptionIgnoresTheTransmitSide : Obligations.ReceptionIgnoresTheTransmitSide := by
  refine ⟨fun s b tx crc drv host => ⟨(s.rxByte b).rx, (s.rxByte b).held, congrArg _ (s.rxByte_eq b),
    congrArg _ (s.rxByte_otherUnits b tx crc drv host s.port)⟩, fun s p hin h14 h20 => ?_⟩
  obtain ⟨port, hrun⟩ := runInputs_rxseq (encodeFrame p) hin
  rw [s.rxBytes_unaddressed h14 h20] at hrun
  exact ⟨_, hrun, rfl, rfl, Accumulator.wholeFrame_rxToolong, rfl, rfl, rfl, rfl⟩

/-- Settles O14: the whole frame is collected, ended and delivered. -/
theorem wellFormedFrameIsDelivered : Obligations.WellFormedFrameIsDelivered := by
  intro s p hinv hin hfree haddr hfit
  obtain ⟨hraw, hpay, hpaylen, htrunc⟩ :=
    HeldFrame.deliver_encodeFrame (hfit.trans_eq hinv.rxrawSize.symm) (hfit.trans_eq hinv.rxpaySize.symm)
  obtain ⟨port, hrun⟩ := runInputs_rxseq (encodeFrame p) hin
  rw [State.rxBytes_delivers hinv hfree haddr hfit] at hrun
  exact ⟨_, hrun, rfl, hraw, rfl, by rw [hpaylen]; exact hpay, hpaylen, htrunc, rfl, rfl, rfl, rfl, rfl⟩

/-- Settles O15: the abandoned bytes change the accumulator alone, and the delivery of the later frame does not depend on what
the accumulator holds. -/
theorem abandonedFrameDoesNotBlockTheNext : Obligations.AbandonedFrameDoesNotBlockTheNext := by
  intro s x p hinv hin hfree hx haddr hfit
  obtain ⟨hraw, hpay, hpaylen, htrunc⟩ :=
    HeldFrame.deliver_encodeFrame (hfit.trans_eq hinv.rxrawSize.symm) (hfit.trans_eq hinv.rxpaySize.symm)
  obtain ⟨port, hrun⟩ := runInputs_rxseq (encodeFrame p) hin
  obtain ⟨port', hrun'⟩ := runInputs_rxseq ((startByte :: x) ++ encodeFrame p) hin
  have hinv' := hinv.rxBytes (startByte :: x)
  rw [s.rxBytes_start hx] at hinv'
  rw [State.rxBytes_delivers hinv hfree haddr hfit] at hrun
  rw [pseudoRxseq_append, State.rxBytes_append, s.rxBytes_start hx, State.rxBytes_delivers hinv' hfree haddr hfit] at hrun'
  refine ⟨_, _, hrun', hrun, rfl, rfl, hraw, by rw [hpaylen]; exact hpay, htrunc, rfl, rfl, by simp, by simp⟩

end Sys2Proof.Proofs
end

section
/-!
SUPPORT. The operations of the Bus Turnaround Driver (42_tx_driver.md R221 to R226, R230 to R232), each as its next state, and
the runs of inputs that a sequence is made of: the waits, the bytes of the frame, and the whole sequence (R234).
-/

namespace Sys2Proof.Machine

/-! ## TX_GO and the delay registers (R221, R230, R231) -/

section Operations
variable {s : State}

theorem exec_txGo (arg : BitVec 28) (hi : s.drv.txEngine = .idle) (hc : s.tx.txb = .closed) :
    exec (.txGo arg) s = .next { s with drv := { s.drv with txEngine := .guard, txcnt := s.drv.guard, txptr := 0 } } :=
  congrArg _ ((if_neg (not_not.2 hi)).trans (if_neg (not_not.2 hc)))

theorem exec_txGo_busy (arg : BitVec 28) (h : s.drv.txEngine ≠ .idle) :
    exec (.txGo arg) s = .next (s.reject .txBusy) :=
  congrArg _ (if_pos h)

theorem exec_txGo_notClosed (arg : BitVec 28) (hi : s.drv.txEngine = .idle) (hc : s.tx.txb ≠ .closed) :
    exec (.txGo arg) s = .next (s.reject .txNotClosed) :=
  congrArg _ ((if_neg (not_not.2 hi)).trans (if_pos hc))

theorem exec_txOpen_busy (arg : BitVec 28) (h : s.drv.txEngine ≠ .idle) :
    exec (.txOpen arg) s = .next (s.reject .txBusy) :=
  congrArg _ (if_pos h)

/-- The delay that a write carries (R97). -/
theorem wdataDelay_eq (wdata : Word) : wdataDelay wdata = BitVec.ofNat 16 (wdata.toNat % 65536) := by
  refine BitVec.eq_of_toNat_eq ?_
  simp [wdataDelay]

/-! ## The events of the line (R225, R226) -/

/-- The state after the line transmitter has taken the byte `b` in SEND (R225). -/
def State.accepted (b : Byte) (s : State) : State :=
  { s with
    port := s.port.emit b,
    drv :=
      { s.drv with
        txptr := s.drv.txptr + 1, txEngine := if s.drv.txptr + 1 = s.tx.txlen then .drain else .send } }

theorem exec_lineAccept (h : s.drv.txEngine = .send) : exec .lineAccept s = .next (s.accepted s.txData) :=
  congrArg _ (if_pos h)

theorem exec_lineIdle (h : s.drv.txEngine = .drain) :
    exec .lineIdle s = .next { s with drv := { s.drv with txEngine := .hold, txcnt := s.drv.hold } } :=
  congrArg _ (if_pos h)

end Operations

/-! ## TICK (R222 to R224) -/

theorem exec_tick (s : State) : exec .tick s = .next { s with drv := s.drv.tick } := rfl

section Tick
variable {d : Driver}

/-- The TICK that ends the guard wait (R222). -/
theorem Driver.tick_guard_zero (h : d.txEngine = .guard) (hc : d.txcnt = 0#16) :
    d.tick = { d with txEngine := .send } := by
  simp [Driver.tick, h, hc]

/-- A TICK counts a wait down that has not run out (R222, R224). -/
theorem Driver.tick_wait (h : d.txEngine = .guard ∨ d.txEngine = .hold) (hc : d.txcnt.toNat ≠ 0) :
    d.tick = { d with txcnt := BitVec.ofNat 16 (d.txcnt.toNat - 1) } := by
  have hne : d.txcnt ≠ 0#16 := fun h0 => hc (by rw [h0]; rfl)
  have hpred : d.txcnt - 1#16 = BitVec.ofNat 16 (d.txcnt.toNat - 1) := by bv_omega
  rcases h with h | h <;> simp [Driver.tick, h, hne, hpred]

/-- No TICK moves a phase that does not wait (R223). -/
theorem Driver.tick_of_not_waiting (h : d.txEngine = .idle ∨ d.txEngine = .send ∨ d.txEngine = .drain) : d.tick = d := by
  rcases h with h | h | h <;> simp [Driver.tick, h]

theorem Driver.toNat_count_sub (d : Driver) (k : Nat) :
    (BitVec.ofNat 16 (d.txcnt.toNat - k)).toNat = d.txcnt.toNat - k := by bv_omega

/-- A wait lasts through as many TICKs as its count says. -/
theorem Driver.iterate_tick_wait (h : d.txEngine = .guard ∨ d.txEngine = .hold) {k : Nat} (hk : k ≤ d.txcnt.toNat) :
    Driver.tick^[k] d = { d with txcnt := BitVec.ofNat 16 (d.txcnt.toNat - k) } := by
  induction k with
  | zero => simp
  | succ k ih =>
    have hcount := d.toNat_count_sub k
    rw [Function.iterate_succ_apply', ih (by omega)]
    rw [Driver.tick_wait (d := { d with txcnt := BitVec.ofNat 16 (d.txcnt.toNat - k) }) h (by rw [hcount]; omega), hcount,
      Nat.sub_sub]

/-- The TICK after them finds the count at 0. -/
theorem Driver.iterate_tick_succ (h : d.txEngine = .guard ∨ d.txEngine = .hold) :
    Driver.tick^[d.txcnt.toNat + 1] d = ({ d with txcnt := 0#16 } : Driver).tick := by
  rw [Function.iterate_succ_apply', Driver.iterate_tick_wait h (Nat.le_refl _), Nat.sub_self]

theorem Driver.iterate_tick_guard (h : d.txEngine = .guard) :
    Driver.tick^[d.txcnt.toNat + 1] d = { d with txEngine := .send, txcnt := 0#16 } :=
  (Driver.iterate_tick_succ (.inl h)).trans (Driver.tick_guard_zero h rfl)

theorem Driver.iterate_tick_hold (h : d.txEngine = .hold) :
    Driver.tick^[d.txcnt.toNat + 1] d = { d with txEngine := .idle, txcnt := 0#16, txDone := true } :=
  (Driver.iterate_tick_succ (.inr h)).trans (Driver.tick_hold_zero h rfl)

end Tick

/-! ## Runs that give bytes to the line transmitter -/

/-- `t` is `s`, except for ports other than the bytes given to the line transmitter. -/
def State.SameUnitsAndLine (s t : State) : Prop := ∃ port, t = { s with port := port } ∧ port.lineLog = s.port.lineLog

section LineRuns
variable {s u : State} {i : Instr}

/-- An operation that leads from `s`, whatever its other ports hold, to `u`. -/
theorem Runs.operationOnLine (hw : i.wellFormed = true)
    (h : ∀ t, s.SameUnitsAndLine t → ∃ v, exec i t = .next v ∧ u.SameUnitsAndLine v) :
    Runs s.SameUnitsAndLine [encode i] u.SameUnitsAndLine := by
  refine .single (decode_encode hw) fun t rest ht => h _ ?_
  obtain ⟨port, rfl, hlog⟩ := ht
  exact ⟨_, rfl, hlog⟩

/-- An operation that gives no byte to the line transmitter and has the same effect whatever the ports hold. -/
theorem Runs.operationOffLine (hw : i.wellFormed = true) (hline : u.port.lineLog = s.port.lineLog)
    (h : ∀ port, exec i { s with port := port } = .next { u with port := port }) :
    Runs s.SameUnitsAndLine [encode i] u.SameUnitsAndLine := by
  refine .operationOnLine hw fun t ht => ?_
  obtain ⟨port, rfl, hlog⟩ := ht
  exact ⟨_, h port, port, rfl, hlog.trans hline.symm⟩

/-- `TICKS n` moves the driver alone (R102). -/
theorem Runs.ticks (n : Nat) (s : State) :
    Runs s.SameUnitsAndLine (pseudoTicks n) { s with drv := Driver.tick^[n] s.drv }.SameUnitsAndLine := by
  induction n generalizing s with
  | zero => exact .nil
  | succ n ih =>
    have hfirst : Runs s.SameUnitsAndLine [encode .tick] { s with drv := s.drv.tick }.SameUnitsAndLine :=
      .operationOffLine rfl rfl fun _ => exec_tick _
    exact hfirst.append (ih _)

theorem runInputs_ticks (n : Nat) (hin : s.port.inputs = []) :
    ∃ port, runInputs (pseudoTicks n) s = .next { s with drv := Driver.tick^[n] s.drv, port := port } := by
  obtain ⟨t, ht, port, rfl, -⟩ := (Runs.ticks n s).runInputs hin ⟨_, rfl, rfl⟩
  exact ⟨port, ht⟩

/-- The guard wait, through the TICK that ends it (R222). -/
theorem Runs.guardWait (h : s.drv.txEngine = .guard) :
    Runs s.SameUnitsAndLine (pseudoTicks (s.drv.txcnt.toNat + 1))
      { s with drv := { s.drv with txEngine := .send, txcnt := 0#16 } }.SameUnitsAndLine := by
  rw [← Driver.iterate_tick_guard h]
  exact .ticks _ s

/-- The hold wait, through the TICK that ends it (R224). -/
theorem Runs.holdWait (h : s.drv.txEngine = .hold) :
    Runs s.SameUnitsAndLine (pseudoTicks (s.drv.txcnt.toNat + 1))
      { s with drv := { s.drv with txEngine := .idle, txcnt := 0#16, txDone := true } }.SameUnitsAndLine := by
  rw [← Driver.iterate_tick_hold h]
  exact .ticks _ s

/-! ## The bytes of a frame -/

/-- The bytes of the frame that have not been handed over. -/
def State.unsent (s : State) : List Byte := (s.tx.txbuf.take s.tx.txlen).drop s.drv.txptr

/-- The state after the rest of the frame has been handed over. -/
def State.frameSent (s : State) : State :=
  { s with
    port := { s.port with lineLog := s.port.lineLog ++ s.unsent },
    drv := { s.drv with txptr := s.tx.txlen, txEngine := .drain } }

/-- LINE_ACCEPT of a byte in the buffer hands that byte over. -/
theorem Runs.accept {b : Byte} (hs : s.drv.txEngine = .send) (hb : s.tx.txbuf[s.drv.txptr]? = some b) :
    Runs s.SameUnitsAndLine [encode .lineAccept] (s.accepted b).SameUnitsAndLine := by
  refine .operationOnLine rfl fun t ht => ?_
  obtain ⟨port, rfl, hlog⟩ := ht
  have hdata : ({ s with port := port } : State).txData = b :=
    State.txData_of_txValid (s := { s with port := port }) ((State.txValid_iff _).2 hs) hb
  exact ⟨_, exec_lineAccept hs, port.emit b, by rw [hdata]; rfl, congrArg (· ++ [b]) hlog⟩

/-- The byte at `txptr` is the first of those not handed over. -/
theorem State.unsent_eq_cons (hlt : s.drv.txptr < s.tx.txlen) (hsize : s.tx.txlen ≤ s.tx.txbuf.length) :
    ∃ b, s.tx.txbuf[s.drv.txptr]? = some b ∧ s.unsent = b :: (s.accepted b).unsent := by
  have hfront : s.drv.txptr < (s.tx.txbuf.take s.tx.txlen).length := by rw [List.length_take]; omega
  refine ⟨s.tx.txbuf[s.drv.txptr]'(by omega), List.getElem?_eq_getElem _, ?_⟩
  rw [State.unsent, List.drop_eq_getElem_cons hfront, List.getElem_take]
  rfl

/-- Handing over one byte and then the rest is handing over all of them. -/
theorem State.frameSent_accepted {b : Byte} (h : s.unsent = b :: (s.accepted b).unsent) :
    (s.accepted b).frameSent = s.frameSent := by
  have hlog : (s.accepted b).port.lineLog ++ (s.accepted b).unsent = s.port.lineLog ++ s.unsent := by
    rw [h]
    exact List.append_assoc ..
  simp only [State.frameSent, hlog]
  rfl

/-- The last byte of the frame enters DRAIN (R225). -/
theorem State.accepted_last {b : Byte} (h : s.unsent = b :: (s.accepted b).unsent) (hlast : s.drv.txptr + 1 = s.tx.txlen) :
    s.accepted b = s.frameSent := by
  have hnone : (s.accepted b).unsent = [] :=
    List.drop_of_length_le ((List.length_take_le _ _).trans hlast.ge)
  rw [← State.frameSent_accepted h]
  simp only [State.frameSent, hnone, List.append_nil]
  simp [State.accepted, Ports.emit, hlast]

/-- As many LINE_ACCEPTs as the frame has bytes left hand them over, in index order, and enter DRAIN. -/
theorem Runs.accepts {n : Nat} (hs : s.drv.txEngine = .send) (hn : s.drv.txptr + n = s.tx.txlen)
    (hlt : s.drv.txptr < s.tx.txlen) (hsize : s.tx.txlen ≤ s.tx.txbuf.length) :
    Runs s.SameUnitsAndLine (pseudoAccepts n) s.frameSent.SameUnitsAndLine := by
  induction n generalizing s with
  | zero => omega
  | succ n ih =>
    obtain ⟨b, hb, hunsent⟩ := State.unsent_eq_cons hlt hsize
    have hfirst := Runs.accept hs hb
    by_cases hlast : s.drv.txptr + 1 = s.tx.txlen
    · obtain rfl : n = 0 := by omega
      rw [← State.accepted_last hunsent hlast]
      exact hfirst
    · rw [← State.frameSent_accepted hunsent]
      exact hfirst.append (ih (if_neg hlast) (by simp only [State.accepted]; omega)
        (by simp only [State.accepted]; omega) hsize)

/-! ## A whole sequence (R234) -/

/-- The state in which the guard wait has ended: the whole frame is to be handed over (R222). -/
def State.guardEnded (s : State) : State :=
  { s with drv := { s.drv with txEngine := .send, txcnt := 0#16, txptr := 0 } }

/-- The state in which the hold wait has ended (R224). -/
def State.holdEnded (s : State) : State :=
  { s with drv := { s.drv with txEngine := .idle, txcnt := 0#16, txDone := true } }

/-- TX_GO and the TICKs of the guard wait (R221, R222). -/
theorem Runs.go_guard (arg : BitVec 28) (hi : s.drv.txEngine = .idle) (hc : s.tx.txb = .closed) :
    Runs s.SameUnitsAndLine ([encode (.txGo arg)] ++ pseudoTicks (s.drv.guard.toNat + 1))
      s.guardEnded.SameUnitsAndLine := by
  have hgo : Runs s.SameUnitsAndLine [encode (.txGo arg)]
      { s with drv := { s.drv with txEngine := .guard, txcnt := s.drv.guard, txptr := 0 } }.SameUnitsAndLine :=
    .operationOffLine rfl rfl fun _ => exec_txGo arg hi hc
  exact hgo.append (.guardWait rfl)

/-- LINE_IDLE and the TICKs of the hold wait (R226, R224). -/
theorem Runs.idle_hold (hd : s.drv.txEngine = .drain) :
    Runs s.SameUnitsAndLine ([encode .lineIdle] ++ pseudoTicks (s.drv.hold.toNat + 1))
      s.holdEnded.SameUnitsAndLine := by
  have hidle : Runs s.SameUnitsAndLine [encode .lineIdle]
      { s with drv := { s.drv with txEngine := .hold, txcnt := s.drv.hold } }.SameUnitsAndLine :=
    .operationOffLine rfl rfl fun _ => exec_lineIdle hd
  exact hidle.append (.holdWait rfl)

/-- The whole sequence of a closed frame: the guard wait, the bytes, the hold wait. -/
theorem Runs.sequence (h : Inv s) (hi : s.drv.txEngine = .idle) (hc : s.tx.txb = .closed) :
    Runs s.SameUnitsAndLine ([encode (.txGo 0#28)] ++ pseudoTicks (s.drv.guard.toNat + 1) ++ pseudoAccepts s.tx.txlen
      ++ [encode .lineIdle] ++ pseudoTicks (s.drv.hold.toNat + 1)) s.guardEnded.frameSent.holdEnded.SameUnitsAndLine := by
  obtain ⟨hmin, hmax, -⟩ := h.txClosed hc
  have haccepts : Runs s.guardEnded.SameUnitsAndLine (pseudoAccepts s.tx.txlen) s.guardEnded.frameSent.SameUnitsAndLine :=
    .accepts rfl (Nat.zero_add _) (Nat.lt_of_lt_of_le Nat.two_pos hmin) (hmax.trans_eq h.txbufSize.symm)
  have hhold : Runs s.guardEnded.frameSent.SameUnitsAndLine ([encode .lineIdle] ++ pseudoTicks (s.drv.hold.toNat + 1))
      s.guardEnded.frameSent.holdEnded.SameUnitsAndLine := .idle_hold rfl
  rw [List.append_assoc _ [encode .lineIdle]]
  exact ((Runs.go_guard 0#28 hi hc).append haccepts).append hhold

end LineRuns

/-! ## A sequence has no abort, and does not sense the bus (R232) -/

/-- While a sequence runs, an operation other than RESET leaves it running or is the TICK that ends the hold wait. -/
theorem exec_txEngine_of_busy {i : Instr} {s : State} (h : s.drv.txEngine ≠ .idle) (hreset : i ≠ .reset) :
    ∃ t, exec i s = .next t ∧
      (t.drv.txEngine ≠ .idle ∨ (i = .tick ∧ s.drv.txEngine = .hold ∧ s.drv.txcnt = 0#16)) := by
  cases i
  case reset => exact absurd rfl hreset
  case tick =>
    refine ⟨_, exec_tick s, ?_⟩
    rcases s.drv.tick_cases with ⟨-, -, e⟩ | ⟨hh, hc, -⟩ | ⟨-, -, e⟩ | ⟨-, e⟩
    · exact .inl (by simp [e])
    · exact .inr ⟨rfl, hh, hc⟩
    · exact .inl (by rw [e]; exact h)
    · exact .inl (by rw [e]; exact h)
  case lineAccept =>
    by_cases hs : s.drv.txEngine = .send
    · refine ⟨_, exec_lineAccept hs, .inl ?_⟩
      simp only [State.accepted]
      split <;> decide
    · exact ⟨_, exec_lineAccept_of_ne_send hs, .inl h⟩
  case lineIdle =>
    by_cases hd : s.drv.txEngine = .drain
    · exact ⟨_, exec_lineIdle hd, .inl (by simp)⟩
    · exact ⟨_, exec_lineIdle_of_ne_drain hd, .inl h⟩
  case txOpen => exact ⟨_, exec_txOpen_busy _ h, .inl h⟩
  case txGo => exact ⟨_, exec_txGo_busy _ h, .inl h⟩
  case wrTxdata | txClose | txCloseCrc => exact ⟨_, rfl, .inl (by rw [State.withOpenFrame_busy _ _ h]; exact h)⟩
  case rxByte | wireStart | wireEnd | wireEscape | wireData => exact ⟨_, rfl, .inl (by rw [State.rxByte_drv]; exact h)⟩
  all_goals exact ⟨_, rfl, .inl h⟩

/-- One of the writes that build a frame, or TX_GO. -/
def TransmitWrite (i : Instr) : Prop :=
  (∃ arg, i = .txOpen arg) ∨ (∃ wdata, i = .wrTxdata wdata) ∨ (∃ arg, i = .txClose arg) ∨ (∃ arg, i = .txCloseCrc arg) ∨
    (∃ arg, i = .txGo arg)

theorem exec_transmitWrite_busy {i : Instr} {s : State} (hi : TransmitWrite i) (h : s.drv.txEngine ≠ .idle) :
    exec i s = .next (s.reject .txBusy) := by
  rcases hi with ⟨arg, rfl⟩ | ⟨wdata, rfl⟩ | ⟨arg, rfl⟩ | ⟨arg, rfl⟩ | ⟨arg, rfl⟩
  · exact exec_txOpen_busy arg h
  · exact congrArg _ (s.withOpenFrame_busy _ h)
  · exact congrArg _ (s.withOpenFrame_busy _ h)
  · exact congrArg _ (s.withOpenFrame_busy _ h)
  · exact exec_txGo_busy arg h

/-- The driver's operations neither read nor change the receive side. -/
theorem exec_driver_withReceiveSide {i : Instr} (hi : (∃ arg, i = .txGo arg) ∨ i = .tick ∨ i = .lineAccept ∨ i = .lineIdle)
    (s : State) (rx : Accumulator) (held : HeldFrame) :
    ∃ t, exec i s = .next t ∧ exec i { s with rx := rx, held := held } = .next { t with rx := rx, held := held } := by
  rcases hi with ⟨arg, rfl⟩ | rfl | rfl | rfl
  · by_cases hb : s.drv.txEngine = .idle
    · by_cases hc : s.tx.txb = .closed
      · exact ⟨_, exec_txGo arg hb hc, exec_txGo arg hb hc⟩
      · exact ⟨_, exec_txGo_notClosed arg hb hc, exec_txGo_notClosed arg hb hc⟩
    · exact ⟨_, exec_txGo_busy arg hb, exec_txGo_busy arg hb⟩
  · exact ⟨_, exec_tick _, exec_tick _⟩
  · by_cases hs : s.drv.txEngine = .send
    · exact ⟨_, exec_lineAccept hs, exec_lineAccept hs⟩
    · exact ⟨_, exec_lineAccept_of_ne_send hs, exec_lineAccept_of_ne_send hs⟩
  · by_cases hd : s.drv.txEngine = .drain
    · exact ⟨_, exec_lineIdle hd, exec_lineIdle hd⟩
    · exact ⟨_, exec_lineIdle_of_ne_drain hd, exec_lineIdle_of_ne_drain hd⟩

end Sys2Proof.Machine

namespace Sys2Proof.Proofs

open Sys2Proof Sys2Proof.Machine

/-- Settles O29, from what TX_GO tests. -/
theorem txGoStartsTheGuardOrIsRejected : Obligations.TxGoStartsTheGuardOrIsRejected :=
  fun _ arg => ⟨exec_txGo arg, exec_txGo_busy arg, exec_txGo_notClosed arg⟩

/-- Settles O32: a write takes the low half of its data as the delay. -/
theorem delayWritesSetOnlyTheirRegister : Obligations.DelayWritesSetOnlyTheirRegister := by
  intro s wdata
  rw [← wdataDelay_eq]
  exact ⟨rfl, rfl⟩

/-- Settles O30, by the phase and by whether the count is 0. -/
theorem tickCountsTheWaits : Obligations.TickCountsTheWaits := by
  intro s
  rw [exec_tick]
  refine ⟨fun hg h0 => ?_, fun hh h0 => ?_, fun hw hne => ?_, fun hstill => ?_⟩
  · rw [Driver.tick_guard_zero hg (BitVec.eq_of_toNat_eq h0)]
    exact ⟨rfl, fun t ht => Host.Outcome.next.inj ht ▸ rfl⟩
  · rw [Driver.tick_hold_zero hh (BitVec.eq_of_toNat_eq h0)]
    exact ⟨rfl, fun t ht => Host.Outcome.next.inj ht ▸ rfl⟩
  · rw [Driver.tick_wait hw hne]
  · rw [Driver.tick_of_not_waiting hstill]

/-- Settles O31, by whether the event comes in the phase that waits for it. -/
theorem lineEventsMoveTheDriver : Obligations.LineEventsMoveTheDriver :=
  fun s => ⟨fun hs => ⟨s.txData, exec_lineAccept hs, fun _ hc => State.txData_of_txValid (s.txValid_iff.2 hs) hc⟩,
    exec_lineAccept_of_ne_send, exec_lineIdle, exec_lineIdle_of_ne_drain⟩

/-- Settles O34: the TICKs move the driver alone, which counts a wait down and ends it when it finds the count at 0. -/
theorem waitEndsOnTheTickAfterItsCount : Obligations.WaitEndsOnTheTickAfterItsCount := by
  intro s hin
  obtain ⟨port, hend⟩ := runInputs_ticks (s.drv.txcnt.toNat + 1) hin
  refine ⟨fun hg => ⟨fun k hk => ?_, ?_⟩, fun hh => ⟨fun k hk => ?_, ?_⟩⟩
  · obtain ⟨port, hrun⟩ := runInputs_ticks k hin
    rw [Driver.iterate_tick_wait (.inl hg) hk] at hrun
    exact ⟨_, hrun, hg, s.drv.toNat_count_sub k, congrArg TxEngine.txen hg⟩
  · rw [Driver.iterate_tick_guard hg] at hend
    exact ⟨_, hend, rfl, rfl⟩
  · obtain ⟨port, hrun⟩ := runInputs_ticks k hin
    rw [Driver.iterate_tick_wait (.inr hh) hk] at hrun
    exact ⟨_, hrun, hh, s.drv.toNat_count_sub k, congrArg TxEngine.txen hh⟩
  · rw [Driver.iterate_tick_hold hh] at hend
    exact ⟨_, hend, rfl, rfl, rfl⟩

/-- Settles O35, by the runs of the guard wait, of the bytes and of the hold wait; in IDLE the count was 0 before, as it is
after. -/
theorem wholeSequenceSendsTheFrame : Obligations.WholeSequenceSendsTheFrame := by
  intro s hinv hin hi hc
  obtain ⟨t, ht, port, rfl, hlog⟩ := (Runs.sequence hinv hi hc).runInputs hin ⟨_, rfl, rfl⟩
  refine ⟨_, ht, hlog, ?_, rfl, rfl, rfl, rfl, rfl⟩
  simp [State.holdEnded, State.frameSent, State.guardEnded, hinv.txcntZero (.inl hi), hi]

/-- Settles O37, by what each operation does while a sequence runs, and by what the driver's operations read. -/
theorem onlyTheHoldOrResetEndsASequence : Obligations.OnlyTheHoldOrResetEndsASequence := by
  refine ⟨fun i s t hbusy he hidle => ?_, fun i s hbusy hi => exec_transmitWrite_busy hi hbusy,
    fun i s t rx held hi he => ?_⟩
  · by_cases hreset : i = .reset
    · exact .inl hreset
    · obtain ⟨u, hu, hend⟩ := exec_txEngine_of_busy hbusy hreset
      obtain rfl : u = t := Host.Outcome.next.inj (hu.symm.trans he)
      exact .inr (hend.resolve_left (not_not.2 hidle))
  · obtain ⟨u, hu, hwith⟩ := exec_driver_withReceiveSide hi s rx held
    obtain rfl : u = t := Host.Outcome.next.inj (hu.symm.trans he)
    exact hwith

end Sys2Proof.Proofs
end

section
/-!
SUPPORT. The host interface's own operations (43_host_access.md R261 to R267): the value a read returns, each register in the
place value its bits have (R38, R49), and what a write of STATUS, IRQEN or CMD does.
-/

namespace Sys2Proof.Machine

/-! ## What a read returns -/

/-- A read whose meaning is the return of `v` returns `w` when they are the same word (R260). -/
theorem Returns.of_hostRead {i : Instr} {s : State} {v w : Word} (he : exec i s = s.hostRead v) (hv : v = w) :
    Returns i s w := by
  rw [Returns, he, State.hostRead_eq, hv]

/-- Write-only registers read 0 (R64). -/
theorem returns_zero_of_writeOnly (s : State) :
    Returns .rdCmd s 0#32 ∧ Returns .rdTxdata s 0#32 ∧ Returns .rdCrcdata s 0#32 :=
  ⟨.of_hostRead rfl rfl, .of_hostRead rfl rfl, .of_hostRead rfl rfl⟩

/-- Reserved offsets read 0 (R63). -/
theorem returns_zero_of_reserved (s : State) (off : Offset) :
    Returns (.rdRsvd200 off) s 0#32 ∧ Returns (.rdRsvd100 off) s 0#32 ∧ Returns (.rdRsvd080 off) s 0#32 ∧
      Returns (.rdRsvd040 off) s 0#32 :=
  ⟨.of_hostRead rfl rfl, .of_hostRead rfl rfl, .of_hostRead rfl rfl, .of_hostRead rfl rfl⟩

/-! ## Fields by their place values (R38, R49) -/

/-- A concatenation as a number: its upper part stands above the bits of the lower one. -/
theorem toNat_append_eq_add {m n : Nat} (x : BitVec m) (y : BitVec n) : (x ++ y).toNat = 2 ^ n * x.toNat + y.toNat := by
  rw [BitVec.toNat_append, ← Nat.shiftLeft_add_eq_or_of_lt y.isLt, Nat.shiftLeft_eq, Nat.mul_comm]

theorem State.statusValue_eq (s : State) : s.statusValue = BitVec.ofNat 32
    (s.held.frameReady.toNat + 2 * s.held.frameTrunc.toNat + 4 * s.rx.rxActivity.toNat + 8 * s.held.rxOverrun.toNat
      + 16 * s.rx.rxToolong.toNat + 32 * s.drv.txDone.toNat + 64 * s.host.cmdErr.toNat + 128 * s.txen.toNat) := by
  rw [State.statusValue, zextByte, ← BitVec.ofNat_toNat, State.statusByte]
  simp only [toNat_append_eq_add, BitVec.toNat_ofBool]
  congr 1
  ring

/-- STATE, given the codes of its three named values. -/
theorem State.stateValue_eq {s : State} {rx engine txb : Nat} (hrx : s.rx.rxState.code.toNat = rx)
    (hengine : s.drv.txEngine.code.toNat = engine) (htxb : s.tx.txb.code.toNat = txb) :
    s.stateValue = BitVec.ofNat 32
      (rx + 2 * s.rx.rxAwait.toNat + 4 * s.rx.rxMatch.toNat + 8 * s.rx.rxOvf.toNat + 16 * engine + 256 * txb) := by
  rw [State.stateValue, ← BitVec.ofNat_toNat, State.stateBits]
  simp only [toNat_append_eq_add, BitVec.toNat_ofBool, BitVec.toNat_ofNat, hrx, hengine, htxb]
  congr 1
  ring

theorem State.toNat_txen (s : State) : s.txen.toNat =
    if s.drv.txEngine = .send ∨ s.drv.txEngine = .drain ∨ s.drv.txEngine = .hold then 1 else 0 := by
  simp only [← s.txen_iff]
  exact Bool.cond_eq_ite ..

/-! ## Counts (R46 to R48, R50, R51) -/

/-- Nine bits hold every count up to the largest buffer (R5, R6). -/
theorem zextCount_eq {n : Nat} (h : n ≤ 256) : zextCount n = BitVec.ofNat 32 n :=
  BitVec.setWidth_ofNat_of_le_of_lt (by decide) (by omega)

theorem Inv.rxDepth_max {s : State} (h : Inv s) : s.cfg.rxDepth ≤ 256 :=
  have ⟨_, hmax, _⟩ := h.params
  hmax

theorem Inv.txDepth_max {s : State} (h : Inv s) : s.cfg.txDepth ≤ 256 :=
  have ⟨_, _, _, hmax, _⟩ := h.params
  hmax

theorem Inv.accLen_le {s : State} (h : Inv s) : s.rx.accLen ≤ 256 := by
  cases hst : s.rx.rxState
  case idle =>
    obtain ⟨hlen, -⟩ := h.rxIdle hst
    omega
  case inFrame =>
    obtain ⟨-, hlen, -⟩ := h.rxInFrame hst
    exact hlen.trans h.rxDepth_max

theorem Inv.heldLengths_le {s : State} (h : Inv s) : s.held.rxlen ≤ 256 ∧ s.held.paylen ≤ 256 := by
  cases hready : s.held.frameReady
  case false =>
    obtain ⟨hraw, hpay, -⟩ := h.heldNone hready
    omega
  case true =>
    obtain ⟨hframe, hpay⟩ := h.heldUnit.frame hready
    have hraw := hframe.maxLength
    have hdepth := h.rxDepth_max
    omega

theorem Inv.txlen_le {s : State} (h : Inv s) : s.tx.txlen ≤ 256 := by
  have hdepth := h.txDepth_max
  cases htxb : s.tx.txb
  case empty =>
    have hlen := h.txEmpty htxb
    omega
  case opened =>
    obtain ⟨-, hlen, -⟩ := h.txOpened htxb
    omega
  case closed =>
    obtain ⟨-, hlen, -⟩ := h.txClosed htxb
    omega

/-! ## Window bytes (R262) -/

theorem State.windowByte_of_lt (s : State) {buf : List Byte} {n : Nat} {i c : Byte} (h : i.toNat < n)
    (hc : buf[i.toNat]? = some c) : s.windowByte buf n i = c :=
  (if_pos h).trans (byteAt_of_getElem? hc _)

/-! ## Writes (R263, R264, R266) -/

theorem w1c_eq (m : Word) (k : Nat) (bit : Bool) : w1c m k bit = if m.getLsbD k then false else bit := by
  rw [w1c]
  cases m.getLsbD k
  · exact Bool.and_true bit
  · exact Bool.and_false bit

/-- CMD_ERR and ERRCAUSE are cleared together or not at all (R263). -/
theorem HostRegs.clearError_if (h : HostRegs) (clear : Bool) :
    (if clear then h.clearError else h) =
      { cmdErr := if clear then false else h.cmdErr, errcause := if clear then .none else h.errcause,
        irqen := h.irqen } := by
  cases clear <;> rfl

/-- Of the bits that IRQEN holds, 0x7D names all but 1 and 7 (R35). -/
theorem getLsbD_enableMask {k : Nat} (hk : k < 8) : (0x7D#32).getLsbD k = decide (k ≠ 1 ∧ k ≠ 7) := by
  revert k
  decide

theorem getLsbD_wdataEnable (v : Word) {k : Nat} (hk : k < 8) :
    (wdataEnable v).getLsbD k = (v.getLsbD k && decide (k ≠ 1 ∧ k ≠ 7)) := by
  rw [wdataEnable, BitVec.getLsbD_extractLsb', Nat.zero_add, BitVec.getLsbD_and, getLsbD_enableMask hk,
    decide_eq_true hk, Bool.true_and]

/-- The two rows of reserved command codes (R95). -/
theorem decodeCmd_reserved {v : Word} (h : 6 ≤ v.toNat % 16) :
    decodeCmd v = if v.toNat % 16 < 8 then .cmdRsvd6to7 v else .cmdRsvd8to15 v := by
  rw [← Laws.toNat_code] at h ⊢
  split
  · exact decodeCmd_rsvd6to7 (codeIn_iff.2 (by omega))
  · exact decodeCmd_rsvd8to15 (codeIn_iff.2 (by omega))

end Sys2Proof.Machine

namespace Sys2Proof.Proofs

open Sys2Proof Sys2Proof.Machine

/-- Settles O38, from the place values of the registers' fields and the bounds that `Inv` gives for the counts. -/
theorem registerReadsReturnTheirFields : Obligations.RegisterReadsReturnTheirFields := by
  intro s h
  obtain ⟨hcmd, htxdata, hcrcdata⟩ := returns_zero_of_writeOnly s
  obtain ⟨hraw, hpay⟩ := h.heldLengths_le
  have htxlen := h.txlen_le
  refine ⟨hcmd, .of_hostRead rfl ?status, .of_hostRead rfl rfl, .of_hostRead rfl ?errcause, htxdata, .of_hostRead rfl rfl,
    hcrcdata, .of_hostRead rfl rfl, .of_hostRead rfl rfl, .of_hostRead rfl (zextCount_eq hraw),
    .of_hostRead rfl (zextCount_eq hpay), .of_hostRead rfl (zextCount_eq htxlen), .of_hostRead rfl ?state,
    .of_hostRead rfl (zextCount_eq h.accLen_le), .of_hostRead rfl (zextCount_eq (h.txptrBound.trans htxlen)),
    .of_hostRead rfl rfl, returns_zero_of_reserved s⟩
  case status => rw [s.statusValue_eq, s.toNat_txen]
  case errcause => cases s.host.errcause <;> rfl
  case state =>
    refine State.stateValue_eq ?_ ?_ ?_
    · cases s.rx.rxState <;> rfl
    · cases s.drv.txEngine <;> rfl
    · cases s.tx.txb <;> rfl

/-- Settles O39: a window read returns the window's byte. -/
theorem windowReadsReturnTheBufferByte : Obligations.WindowReadsReturnTheBufferByte :=
  fun s _ =>
    ⟨⟨_, .of_hostRead rfl rfl, fun hlt _ hc => s.windowByte_of_lt hlt hc⟩,
      ⟨_, .of_hostRead rfl rfl, fun hlt _ hc => s.windowByte_of_lt hlt hc⟩,
      ⟨_, .of_hostRead rfl rfl, fun hlt _ hc => s.windowByte_of_lt hlt hc⟩⟩

/-- Settles O42, bit by bit. -/
theorem irqenWriteKeepsTheEnableBits : Obligations.IrqenWriteKeepsTheEnableBits :=
  fun _ v => ⟨wdataEnable v, rfl, fun _ hk => getLsbD_wdataEnable v hk⟩

/-- Settles O43: a reserved command is a rejection, and its code decides its row. -/
theorem nopDoesNothingAndReservedCommandsAreRejected : Obligations.NopDoesNothingAndReservedCommandsAreRejected := by
  refine ⟨fun _ _ => rfl, fun s _ => ?_, fun v hv => ?_⟩
  · rw [← State.reject_eq]
    exact ⟨rfl, rfl⟩
  · rw [decode_writeCmd, decodeCmd_reserved hv]

/-- Settles O41: each bit of STATUS by its bit of the mask, ERRCAUSE with CMD_ERR. -/
theorem statusWriteClearsTheBitsWrittenOne : Obligations.StatusWriteClearsTheBitsWrittenOne := by
  intro s m
  rw [← HostRegs.clearError_if]
  simp only [← w1c_eq]
  rfl

/-- Settles O44: such a write has no effect in its meaning, and such a read returns 0. -/
theorem writesWithoutEffectChangeNothing : Obligations.WritesWithoutEffectChangeNothing := by
  intro s off i v
  obtain ⟨hcmd, htxdata, hcrcdata⟩ := returns_zero_of_writeOnly s
  exact ⟨rfl, rfl, rfl, rfl, rfl, rfl, rfl, rfl, rfl, rfl, rfl, rfl, rfl, rfl, rfl, hcmd, htxdata, hcrcdata,
    returns_zero_of_reserved s off⟩

end Sys2Proof.Proofs
end

section
/-!
SUPPORT. The exceptions and the interrupt (60_exceptions.md R300 to R310): what each operation can do to the sources of the
interrupt, said once, the level of IRQ, and the run of a queue of named operations.
-/

namespace Sys2Proof.Machine

/-! ## What an operation can do to the sources (R302, R306) -/

/-- The operation is a host write of CMD or of TXDATA (R300). -/
def CmdOrTxdataWrite (i : Instr) : Prop :=
  ∃ wdata, encode i = .word (writeWord 0x000#12 wdata) ∨ encode i = .word (writeWord 0x010#12 wdata)

/-- The fields that hold the sources of the interrupt, and the recorded cause, are in `t` as they are in `s`. -/
structure KeepsSources (s t : State) : Prop where
  rx : t.rx = s.rx
  held : t.held = s.held
  txDone : t.drv.txDone = s.drv.txDone
  cmdErr : t.host.cmdErr = s.host.cmdErr
  errcause : t.host.errcause = s.host.errcause

theorem KeepsSources.refl (s : State) : KeepsSources s s := ⟨rfl, rfl, rfl, rfl, rfl⟩

/-- The state after WR STATUS with the mask `m` (R263). -/
def State.statusCleared (m : Word) (s : State) : State :=
  { s with
    rx := { s.rx with
      rxActivity := if m.getLsbD 2 then false else s.rx.rxActivity
      rxToolong := if m.getLsbD 4 then false else s.rx.rxToolong }
    held := { s.held with rxOverrun := if m.getLsbD 3 then false else s.held.rxOverrun }
    drv := { s.drv with txDone := if m.getLsbD 5 then false else s.drv.txDone }
    host :=
      { cmdErr := if m.getLsbD 6 then false else s.host.cmdErr
        errcause := if m.getLsbD 6 then .none else s.host.errcause
        irqen := s.host.irqen } }

theorem exec_wrStatus (m : Word) (s : State) : exec (.wrStatus m) s = .next (s.statusCleared m) :=
  Proofs.statusWriteClearsTheBitsWrittenOne s m

/-- `SourceEffect i s t`: the operation `i` may lead from `s` to `t`, as far as the sources of the interrupt go. -/
inductive SourceEffect : Instr → State → State → Prop
  /-- RESET (R340) -/
  | reset (s : State) : SourceEffect .reset s (State.afterReset s.cfg s.port)
  /-- a received byte (R182) -/
  | byte {i : Instr} {b : Byte} (s : State) (h : i.received = some b) : SourceEffect i s (s.rxByte b)
  /-- RX_RELEASE (R190) -/
  | release (arg : BitVec 28) (s : State) : SourceEffect (.rxRelease arg) s
      { s with held := { s.held with frameReady := false, frameTrunc := false, rxlen := 0, paylen := 0 } }
  /-- WR STATUS (R263) -/
  | clear (m : Word) (s : State) : SourceEffect (.wrStatus m) s (s.statusCleared m)
  /-- TICK (R222 to R224) -/
  | tick (s : State) : SourceEffect .tick s { s with drv := s.drv.tick }
  /-- a rejection (R302) -/
  | rejected {i : Instr} {c : Cause} (s : State) (hi : CmdOrTxdataWrite i) (hc : c ≠ .none) :
      SourceEffect i s (s.reject c)
  /-- every other operation, and every write that is accepted -/
  | quiet {i : Instr} {s t : State} (h : KeepsSources s t) : SourceEffect i s t

/-- A write that needs an open frame is rejected or has its own effect (R303). -/
theorem SourceEffect.withOpenFrame {i : Instr} {s u : State} (hi : CmdOrTxdataWrite i) (hu : SourceEffect i s u) :
    SourceEffect i s (s.withOpenFrame u) := by
  rcases s.withOpenFrame_cases u with ⟨-, e⟩ | ⟨-, -, e⟩ | ⟨-, -, e⟩ <;> rw [e]
  · exact .rejected s hi (by decide)
  · exact .rejected s hi (by decide)
  · exact hu

/-- Every operation answers a next state, with one of these effects. -/
theorem exec_sourceEffect (i : Instr) (s : State) : ∃ t, exec i s = .next t ∧ SourceEffect i s t := by
  cases i
  case reset => exact ⟨_, rfl, .reset s⟩
  case rxByte | wireStart | wireEnd | wireEscape | wireData => exact ⟨_, rfl, .byte s rfl⟩
  case rxRelease arg => exact ⟨_, rfl, .release arg s⟩
  case wrStatus m => exact ⟨_, exec_wrStatus m s, .clear m s⟩
  case tick => exact ⟨_, exec_tick s, .tick s⟩
  case cmdRsvd6to7 | cmdRsvd8to15 => exact ⟨_, rfl, .rejected s ⟨_, .inl rfl⟩ (by decide)⟩
  case txOpen =>
    refine ⟨_, rfl, ?_⟩
    split
    · exact .rejected s ⟨_, .inl rfl⟩ (by decide)
    · exact .quiet ⟨rfl, rfl, rfl, rfl, rfl⟩
  case txGo =>
    refine ⟨_, rfl, ?_⟩
    split
    · exact .rejected s ⟨_, .inl rfl⟩ (by decide)
    · split
      · exact .rejected s ⟨_, .inl rfl⟩ (by decide)
      · exact .quiet ⟨rfl, rfl, rfl, rfl, rfl⟩
  case txClose => exact ⟨_, rfl, .withOpenFrame ⟨_, .inl rfl⟩ (.quiet ⟨rfl, rfl, rfl, rfl, rfl⟩)⟩
  case txCloseCrc =>
    refine ⟨_, rfl, .withOpenFrame ⟨_, .inl rfl⟩ ?_⟩
    split
    · exact .rejected s ⟨_, .inl rfl⟩ (by decide)
    · exact .quiet ⟨rfl, rfl, rfl, rfl, rfl⟩
  case wrTxdata =>
    refine ⟨_, rfl, .withOpenFrame ⟨_, .inr rfl⟩ ?_⟩
    split
    · exact .rejected s ⟨_, .inr rfl⟩ (by decide)
    · exact .quiet ⟨rfl, rfl, rfl, rfl, rfl⟩
  case lineAccept | lineIdle =>
    refine ⟨_, rfl, .quiet ?_⟩
    split
    · exact ⟨rfl, rfl, rfl, rfl, rfl⟩
    · exact .refl s
  all_goals exact ⟨_, rfl, .quiet ⟨rfl, rfl, rfl, rfl, rfl⟩⟩

theorem SourceEffect.of_exec {i : Instr} {s t : State} (he : exec i s = .next t) : SourceEffect i s t := by
  obtain ⟨u, hu, heffect⟩ := exec_sourceEffect i s
  obtain rfl : u = t := Host.Outcome.next.inj (hu.symm.trans he)
  exact heffect

/-! ## What sets and what clears a bit -/

/-- A bit that goes from `old` to `new` has been set only if `sets` holds, and cleared only if `clears` does. -/
def SetAndClearedBy (old new : Bool) (sets clears : Prop) : Prop :=
  (old = false → new = true → sets) ∧ (old = true → new = false → clears)

section SetAndClearedBy
variable {old new : Bool} {sets clears p : Prop}

theorem SetAndClearedBy.of_eq (h : new = old) : SetAndClearedBy old new sets clears := by
  subst h
  exact ⟨fun h0 h1 => absurd (h0.symm.trans h1) (by decide), fun h1 h0 => absurd (h1.symm.trans h0) (by decide)⟩

theorem SetAndClearedBy.set (h : sets) (hnew : new = true) : SetAndClearedBy old new sets clears :=
  ⟨fun _ _ => h, fun _ h0 => absurd (hnew.symm.trans h0) (by decide)⟩

theorem SetAndClearedBy.clear (h : clears) (hnew : new = false) : SetAndClearedBy old new sets clears :=
  ⟨fun _ h1 => absurd (h1.symm.trans hnew) (by decide), fun _ _ => h⟩

/-- A write 1 to clear. -/
theorem SetAndClearedBy.clear_if [Decidable p] (h : p → clears) :
    SetAndClearedBy old (if p then false else old) sets clears := by
  split
  · next hp => exact .clear (h hp) rfl
  · exact .of_eq rfl

end SetAndClearedBy

/-- A received byte sets RX_TOOLONG only as an END (R185). -/
theorem State.rxByte_rxToolong_cases (s : State) (b : Byte) :
    (s.rxByte b).rx.rxToolong = s.rx.rxToolong ∨ (b = endByte ∧ (s.rxByte b).rx.rxToolong = true) := by
  rcases s.rxByte_cases b with ⟨-, e⟩ | ⟨-, -, e⟩ | ⟨-, -, -, e⟩ | ⟨-, hb, e⟩ <;> rw [e]
  · exact .inl rfl
  · exact .inl rfl
  · exact .inl (Accumulator.advance_rxToolong ..)
  · rcases State.endFrame_cases { s with rx := s.rx.advance s.cfg.rxDepth endByte } with
      ⟨-, e⟩ | ⟨-, -, e⟩ | ⟨-, -, -, e⟩ | ⟨-, -, -, e⟩ <;> rw [e]
    · exact .inl (Accumulator.advance_rxToolong ..)
    · exact .inr ⟨hb, rfl⟩
    · exact .inl (Accumulator.advance_rxToolong ..)
    · exact .inl (Accumulator.advance_rxToolong ..)

/-! ## Each source by itself (R306) -/

/-- The operation ends a sticky bit: RESET, or a write of 1 to bit `k` of STATUS. -/
def ClearsBit (k : Nat) (i : Instr) : Prop := i = .reset ∨ ∃ m, i = .wrStatus m ∧ m.getLsbD k = true

section Sources
variable {i : Instr} {s t : State}

theorem ClearsBit.wrStatus {m : Word} {k : Nat} (h : m.getLsbD k = true) : ClearsBit k (.wrStatus m) := .inr ⟨m, rfl, h⟩

theorem SourceEffect.frameReady (h : SourceEffect i s t) :
    SetAndClearedBy s.held.frameReady t.held.frameReady (i.received = some endByte)
      (i = .reset ∨ ∃ arg, i = .rxRelease arg) := by
  cases h with
  | reset => exact .clear (.inl rfl) rfl
  | byte _ hb =>
    rcases s.rxByte_held_cases _ with e | ⟨-, -, e⟩ | ⟨hend, -, _, _, e⟩
    · exact .of_eq (by rw [e])
    · exact .of_eq (by rw [e])
    · exact .set (hend ▸ hb) (by rw [e]; rfl)
  | release arg => exact .clear (.inr ⟨arg, rfl⟩) rfl
  | clear | tick | rejected => exact .of_eq rfl
  | quiet hkeep => exact .of_eq (by rw [hkeep.held])

theorem SourceEffect.rxActivity (h : SourceEffect i s t) :
    SetAndClearedBy s.rx.rxActivity t.rx.rxActivity (i.received ≠ none) (ClearsBit 2 i) := by
  cases h with
  | reset => exact .clear (.inl rfl) rfl
  | byte _ hb => exact .set (by simp [hb]) (s.rxByte_rxActivity _)
  | clear => exact .clear_if .wrStatus
  | release | tick | rejected => exact .of_eq rfl
  | quiet hkeep => exact .of_eq (by rw [hkeep.rx])

theorem SourceEffect.rxOverrun (h : SourceEffect i s t) :
    SetAndClearedBy s.held.rxOverrun t.held.rxOverrun (i.received = some endByte ∧ s.held.frameReady = true)
      (ClearsBit 3 i) := by
  cases h with
  | reset => exact .clear (.inl rfl) rfl
  | byte _ hb =>
    rcases s.rxByte_held_cases _ with e | ⟨hend, hready, e⟩ | ⟨-, -, _, _, e⟩
    · exact .of_eq (by rw [e])
    · exact .set ⟨hend ▸ hb, hready⟩ (by rw [e])
    · exact .of_eq (by rw [e]; rfl)
  | clear => exact .clear_if .wrStatus
  | release | tick | rejected => exact .of_eq rfl
  | quiet hkeep => exact .of_eq (by rw [hkeep.held])

theorem SourceEffect.rxToolong (h : SourceEffect i s t) :
    SetAndClearedBy s.rx.rxToolong t.rx.rxToolong (i.received = some endByte) (ClearsBit 4 i) := by
  cases h with
  | reset => exact .clear (.inl rfl) rfl
  | byte _ hb =>
    rcases s.rxByte_rxToolong_cases _ with e | ⟨hend, e⟩
    · exact .of_eq e
    · exact .set (hend ▸ hb) e
  | clear => exact .clear_if .wrStatus
  | release | tick | rejected => exact .of_eq rfl
  | quiet hkeep => exact .of_eq (by rw [hkeep.rx])

theorem SourceEffect.txDone (h : SourceEffect i s t) :
    SetAndClearedBy s.drv.txDone t.drv.txDone (i = .tick ∧ s.drv.txEngine = .hold ∧ t.drv.txEngine = .idle)
      (ClearsBit 5 i) := by
  cases h with
  | reset => exact .clear (.inl rfl) rfl
  | byte => exact .of_eq (by rw [State.rxByte_drv])
  | clear => exact .clear_if .wrStatus
  | tick =>
    rcases s.drv.tick_cases with ⟨-, -, e⟩ | ⟨hhold, -, e⟩ | ⟨-, -, e⟩ | ⟨-, e⟩
    · exact .of_eq (by rw [e])
    · exact .set ⟨rfl, hhold, by rw [e]⟩ (by rw [e])
    · exact .of_eq (by rw [e])
    · exact .of_eq (by rw [e])
  | release | rejected => exact .of_eq rfl
  | quiet hkeep => exact .of_eq hkeep.txDone

/-- CMD_ERR and ERRCAUSE together: both stay, or a rejection records a cause, or CMD_ERR is cleared (R302, R310). -/
theorem SourceEffect.error_cases (h : SourceEffect i s t) :
    (t.host.cmdErr = s.host.cmdErr ∧ t.host.errcause = s.host.errcause) ∨
    (CmdOrTxdataWrite i ∧ ∃ c, c ≠ .none ∧ t = s.reject c) ∨
    (ClearsBit 6 i ∧ t.host.cmdErr = false) := by
  cases h with
  | reset => exact .inr (.inr ⟨.inl rfl, rfl⟩)
  | byte => exact .inl (by simp)
  | clear m =>
    by_cases hm : m.getLsbD 6 = true
    · exact .inr (.inr ⟨.wrStatus hm, if_pos hm⟩)
    · exact .inl ⟨if_neg hm, if_neg hm⟩
  | rejected _ hi hc => exact .inr (.inl ⟨hi, _, hc, rfl⟩)
  | release | tick => exact .inl ⟨rfl, rfl⟩
  | quiet hkeep => exact .inl ⟨hkeep.cmdErr, hkeep.errcause⟩

theorem SourceEffect.cmdErr (h : SourceEffect i s t) :
    SetAndClearedBy s.host.cmdErr t.host.cmdErr (t.host.errcause ≠ .none ∧ CmdOrTxdataWrite i) (ClearsBit 6 i) := by
  rcases h.error_cases with ⟨herr, -⟩ | ⟨hi, c, hc, rfl⟩ | ⟨hclears, herr⟩
  · exact .of_eq herr
  · exact .set ⟨hc, hi⟩ rfl
  · exact .clear hclears herr

/-- Wherever ERRCAUSE changes, CMD_ERR is then 1 or has been cleared. -/
theorem SourceEffect.errcause (h : SourceEffect i s t) (hne : t.host.errcause ≠ s.host.errcause) :
    t.host.cmdErr = true ∨ ClearsBit 6 i := by
  rcases h.error_cases with ⟨-, hcause⟩ | ⟨-, c, -, rfl⟩ | ⟨hclears, -⟩
  · exact absurd hcause hne
  · exact .inl rfl
  · exact .inr hclears

/-- An operation that leaves CMD_ERR set and has set it or changed ERRCAUSE is a rejection. -/
theorem SourceEffect.rejects (h : SourceEffect i s t) (herr : t.host.cmdErr = true)
    (hchange : s.host.cmdErr = false ∨ t.host.errcause ≠ s.host.errcause) :
    CmdOrTxdataWrite i ∧ ∃ c, c ≠ .none ∧ t = s.reject c := by
  rcases h.error_cases with ⟨hsame, hcause⟩ | hrejected | ⟨-, hcleared⟩
  · rcases hchange with hclear | hne
    · exact absurd ((herr.symm.trans hsame).trans hclear) (by decide)
    · exact absurd hcause hne
  · exact hrejected
  · exact absurd (herr.symm.trans hcleared) (by decide)

end Sources

/-! ## The level of IRQ (R307) -/

/-- STATUS, built up bit by bit from bit 7 (R38). -/
theorem State.statusByte_eq_concat (s : State) :
    s.statusByte =
      (((((((BitVec.ofBool s.txen).concat s.host.cmdErr).concat s.drv.txDone).concat s.rx.rxToolong).concat
        s.held.rxOverrun).concat s.rx.rxActivity).concat s.held.frameTrunc).concat s.held.frameReady := rfl

/-- The bits of STATUS that are sources of the interrupt (R38). -/
theorem State.statusByte_sources (s : State) :
    s.statusByte.getLsbD 0 = s.held.frameReady ∧ s.statusByte.getLsbD 2 = s.rx.rxActivity ∧
      s.statusByte.getLsbD 3 = s.held.rxOverrun ∧ s.statusByte.getLsbD 4 = s.rx.rxToolong ∧
      s.statusByte.getLsbD 5 = s.drv.txDone ∧ s.statusByte.getLsbD 6 = s.host.cmdErr := by
  simp only [s.statusByte_eq_concat, BitVec.getLsbD_concat]
  exact ⟨rfl, rfl, rfl, rfl, rfl, rfl⟩

/-- The mask of R307 names the bits of the six sources. -/
theorem getLsbD_sourceMask (k : Nat) : (0x7D#8).getLsbD k = true ↔ k ∈ [0, 2, 3, 4, 5, 6] := by
  by_cases hk : k < 8
  · revert k
    decide
  · simp only [BitVec.getLsbD_of_ge _ _ (Nat.le_of_not_lt hk), Bool.false_eq_true, false_iff, List.mem_cons,
      List.not_mem_nil, or_false]
    omega

/-- IRQ is 1 exactly when STATUS and IRQEN have the bit of one source at 1. -/
theorem State.irq_iff (s : State) :
    s.irq = true ↔ ∃ k ∈ [0, 2, 3, 4, 5, 6], s.statusByte.getLsbD k = true ∧ s.host.irqen.getLsbD k = true := by
  rw [State.irq, bne_iff_ne, ne_eq, BitVec.zero_iff_eq_false, not_forall]
  refine exists_congr fun k => ?_
  rw [Bool.not_eq_false, BitVec.getLsbD_and, BitVec.getLsbD_and, Bool.and_eq_true, Bool.and_eq_true,
    getLsbD_sourceMask, and_comm]

/-! ## A queue of named operations (R302, R309, R318) -/

/-- Inputs that all name operations run to their end, whatever the state. -/
theorem Runs.named (xs : List Input) (h : ∀ x ∈ xs, ∃ i, decode x = .ok i) : Runs (fun _ => True) xs fun _ => True := by
  induction xs with
  | nil => exact .nil
  | cons x xs ih =>
    obtain ⟨⟨i, hd⟩, hrest⟩ := List.forall_mem_cons.1 h
    refine (Runs.single hd fun s rest _ => ?_).append (ih hrest)
    obtain ⟨t, ht, -⟩ := exec_next i (s.beginOp i rest)
    exact ⟨t, ht, trivial⟩

end Sys2Proof.Machine

namespace Sys2Proof.Proofs

open Sys2Proof Sys2Proof.Machine

/-- Settles O45: such an operation is a rejection, which changes CMD_ERR and ERRCAUSE alone. -/
theorem onlyCmdAndTxdataWritesAreRejected : Obligations.OnlyCmdAndTxdataWritesAreRejected := by
  intro i s t he herr hchange
  obtain ⟨hi, c, hc, rfl⟩ := (SourceEffect.of_exec he).rejects herr hchange
  exact ⟨hi, s.reject_eq c, hc⟩

/-- Settles O46: the bits that the mask leaves are the six sources. -/
theorem irqIsTheEnabledPendingLevel : Obligations.IrqIsTheEnabledPendingLevel := by
  intro s
  obtain ⟨h0, h2, h3, h4, h5, h6⟩ := s.statusByte_sources
  rw [s.irq_iff, ← h0, ← h2, ← h3, ← h4, ← h5, ← h6]
  simp only [List.mem_cons, List.not_mem_nil, or_false, exists_eq_or_imp, exists_eq_left]

/-- Settles O48, source by source, from the effects that an operation can have on them. -/
theorem sourcesAreSetAndClearedByTheirEvents : Obligations.SourcesAreSetAndClearedByTheirEvents := by
  intro i s t he
  have h := SourceEffect.of_exec he
  refine ⟨h.frameReady.1, h.frameReady.2, fun hbyte => ?_, h.rxActivity.1, h.rxActivity.2, h.rxOverrun.1, h.rxOverrun.2,
    h.rxToolong.1, h.rxToolong.2, h.txDone.1, h.txDone.2, h.cmdErr.1, h.cmdErr.2, h.errcause⟩
  obtain ⟨b, hb⟩ := Option.ne_none_iff_exists'.1 hbyte
  obtain rfl : s.rxByte b = t := Host.Outcome.next.inj ((exec_of_received hb s).symm.trans he)
  exact s.rxByte_rxActivity b

/-- Settles O51: each input runs its operation, and leaves the rest of the queue. -/
theorem namedOperationsAlwaysRun : Obligations.NamedOperationsAlwaysRun := by
  intro s h
  obtain ⟨t, ht, -, hend⟩ := Runs.named s.port.inputs h s [] trivial (List.append_nil _).symm
  exact ⟨t, ht, hend⟩

end Sys2Proof.Proofs
end

section
/-!
SUPPORT. Reset and hazards (70_reset_and_hazards.md). The delay registers (R352): the operations that read or write one, and
that every other operation does the same whatever they hold. The state that RESET answers (R340, R341).
-/

namespace Sys2Proof.Machine

/-! ## The delay registers (R230, R231, R352) -/

/-- The driver with the delays `g` in GUARD and `h` in HOLD. -/
def Driver.withDelays (g h : BitVec 16) (d : Driver) : Driver := { d with guard := g, hold := h }

/-- The state with the delays `g` in GUARD and `h` in HOLD. -/
def State.withDelays (g h : BitVec 16) (s : State) : State := { s with drv := s.drv.withDelays g h }

/-- The operations that read or write a delay register (R221, R226, R230, R231, R261, R340). -/
def UsesDelay (i : Instr) : Prop :=
  i = .reset ∨ (∃ arg, i = .txGo arg) ∨ i = .rdGuard ∨ (∃ wdata, i = .wrGuard wdata) ∨ i = .lineIdle ∨ i = .rdHold ∨
    (∃ wdata, i = .wrHold wdata)

section Delays
variable (g h : BitVec 16) (s : State)

theorem Driver.tick_withDelays (d : Driver) : (d.withDelays g h).tick = d.tick.withDelays g h := by
  unfold Driver.tick Driver.withDelays
  obtain ⟨phase, -, count, -, -, -⟩ := d
  cases phase
  case idle | send | drain => rfl
  case guard | hold => by_cases hc : count = 0#16 <;> simp [hc]

theorem State.rxByte_withDelays (b : Byte) : (s.withDelays g h).rxByte b = (s.rxByte b).withDelays g h := by
  rw [s.rxByte_eq b]
  exact s.rxByte_otherUnits b s.tx s.crc (s.drv.withDelays g h) s.host s.port

/-- The checks of R303 read the phase and the buffer alone. -/
theorem State.withOpenFrame_withDelays (u : State) :
    (s.withDelays g h).withOpenFrame (u.withDelays g h) = (s.withOpenFrame u).withDelays g h := by
  rcases s.withOpenFrame_cases u with ⟨hb, e⟩ | ⟨hi, hn, e⟩ | ⟨hi, ho, e⟩ <;> rw [e]
  · exact State.withOpenFrame_busy _ _ hb
  · exact (if_neg (not_not.2 hi)).trans (if_pos hn)
  · exact State.withOpenFrame_open _ _ hi ho

/-- An operation that uses no delay register does the same whatever the two hold. -/
theorem exec_withDelays {i : Instr} (hi : ¬ UsesDelay i) :
    ∃ t, exec i s = .next t ∧ exec i (s.withDelays g h) = .next (t.withDelays g h) := by
  cases i
  case reset | txGo | rdGuard | wrGuard | lineIdle | rdHold | wrHold => exact absurd (by simp [UsesDelay]) hi
  case rxByte | wireStart | wireEnd | wireEscape | wireData =>
    exact ⟨_, rfl, congrArg Host.Outcome.next (s.rxByte_withDelays g h _)⟩
  case tick => exact ⟨_, exec_tick s, by simp only [exec_tick, State.withDelays, Driver.tick_withDelays]⟩
  case lineAccept =>
    by_cases hs : s.drv.txEngine = .send
    · exact ⟨_, exec_lineAccept hs, exec_lineAccept hs⟩
    · exact ⟨_, exec_lineAccept_of_ne_send hs, exec_lineAccept_of_ne_send hs⟩
  case txOpen arg =>
    by_cases hb : s.drv.txEngine = .idle
    · exact ⟨_, exec_txOpen arg hb, exec_txOpen arg hb⟩
    · exact ⟨_, exec_txOpen_busy arg hb, exec_txOpen_busy arg hb⟩
  case txClose =>
    refine ⟨_, rfl, congrArg Host.Outcome.next ?_⟩
    rw [← State.withOpenFrame_withDelays]
    rfl
  case wrTxdata | txCloseCrc =>
    refine ⟨_, rfl, congrArg Host.Outcome.next ?_⟩
    rw [← State.withOpenFrame_withDelays, apply_ite (State.withDelays g h)]
    rfl
  all_goals exact ⟨_, rfl, rfl⟩

/-- Such an operation leaves them, too: it does the same with the delays that the registers hold already. -/
theorem exec_keeps_delays {i : Instr} {s t : State} (hi : ¬ UsesDelay i) (he : exec i s = .next t) :
    t.drv.guard = s.drv.guard ∧ t.drv.hold = s.drv.hold := by
  obtain ⟨u, hu, hsame⟩ := exec_withDelays s.drv.guard s.drv.hold s hi
  obtain rfl : u = t := Host.Outcome.next.inj (hu.symm.trans he)
  have hkeep : u = u.withDelays s.drv.guard s.drv.hold := Host.Outcome.next.inj (he.symm.trans hsame)
  exact ⟨congrArg (·.drv.guard) hkeep, congrArg (·.drv.hold) hkeep⟩

/-- GUARD is read by TX_GO alone (R230, R352). -/
theorem exec_withGuard {i : Instr} (hreset : i ≠ .reset) (hgo : ∀ arg, i ≠ .txGo arg) (hrd : i ≠ .rdGuard)
    (hwr : ∀ wdata, i ≠ .wrGuard wdata) :
    ∃ t, exec i s = .next t ∧ exec i (s.withDelays g s.drv.hold) = .next (t.withDelays g t.drv.hold) := by
  by_cases hi : UsesDelay i
  · rcases hi with rfl | ⟨arg, rfl⟩ | rfl | ⟨wdata, rfl⟩ | rfl | rfl | ⟨wdata, rfl⟩
    · exact absurd rfl hreset
    · exact absurd rfl (hgo arg)
    · exact absurd rfl hrd
    · exact absurd rfl (hwr wdata)
    · by_cases hd : s.drv.txEngine = .drain
      · exact ⟨_, exec_lineIdle hd, exec_lineIdle hd⟩
      · exact ⟨_, exec_lineIdle_of_ne_drain hd, exec_lineIdle_of_ne_drain hd⟩
    · exact ⟨_, rfl, rfl⟩
    · exact ⟨_, rfl, rfl⟩
  · obtain ⟨t, ht, hwith⟩ := exec_withDelays g s.drv.hold s hi
    exact ⟨t, ht, (exec_keeps_delays hi ht).2 ▸ hwith⟩

/-- HOLD is read by LINE_IDLE alone (R231, R352). -/
theorem exec_withHold {i : Instr} (hreset : i ≠ .reset) (hidle : i ≠ .lineIdle) (hrd : i ≠ .rdHold)
    (hwr : ∀ wdata, i ≠ .wrHold wdata) :
    ∃ t, exec i s = .next t ∧ exec i (s.withDelays s.drv.guard h) = .next (t.withDelays t.drv.guard h) := by
  by_cases hi : UsesDelay i
  · rcases hi with rfl | ⟨arg, rfl⟩ | rfl | ⟨wdata, rfl⟩ | rfl | rfl | ⟨wdata, rfl⟩
    · exact absurd rfl hreset
    · by_cases hphase : s.drv.txEngine = .idle
      · by_cases hc : s.tx.txb = .closed
        · exact ⟨_, exec_txGo arg hphase hc, exec_txGo arg hphase hc⟩
        · exact ⟨_, exec_txGo_notClosed arg hphase hc, exec_txGo_notClosed arg hphase hc⟩
      · exact ⟨_, exec_txGo_busy arg hphase, exec_txGo_busy arg hphase⟩
    · exact ⟨_, rfl, rfl⟩
    · exact ⟨_, rfl, rfl⟩
    · exact absurd rfl hidle
    · exact absurd rfl hrd
    · exact absurd rfl (hwr wdata)
  · obtain ⟨t, ht, hwith⟩ := exec_withDelays s.drv.guard h s hi
    exact ⟨t, ht, (exec_keeps_delays hi ht).1 ▸ hwith⟩

end Delays

/-! ## The state right after RESET (R340, R341) -/

theorem exec_reset (s : State) : exec .reset s = .next (State.afterReset s.cfg s.port) := rfl

section AfterReset
variable (cfg : Config) (port : Ports)

theorem State.afterReset_txen : (State.afterReset cfg port).txen = false := rfl
theorem State.afterReset_txValid : (State.afterReset cfg port).txValid = false := rfl

theorem State.afterReset_statusValue : (State.afterReset cfg port).statusValue = 0#32 := by
  rw [State.statusValue_eq]
  rfl

theorem State.afterReset_stateValue : (State.afterReset cfg port).stateValue = 0#32 :=
  State.stateValue_eq (rx := 0) (engine := 0) (txb := 0) rfl rfl rfl

/-- No source of the interrupt is enabled (R307). -/
theorem State.afterReset_irq : (State.afterReset cfg port).irq = false := by
  have hirqen : (State.afterReset cfg port).host.irqen = 0#8 := rfl
  simp [State.irq, hirqen]

end AfterReset

end Sys2Proof.Machine

namespace Sys2Proof.Proofs

open Sys2Proof Sys2Proof.Machine

/-- Settles O33: an operation that uses neither register does the same whatever the two hold, and one that uses the other
register alone does not look at this one. -/
theorem delaysAreReadOnlyWhenAWaitBegins : Obligations.DelaysAreReadOnlyWhenAWaitBegins := by
  refine ⟨fun i s t g hgo hrd hreset hwr he => ?_, fun i s t h hidle hrd hreset hwr he => ?_⟩
  · obtain ⟨u, hu, hwith⟩ := exec_withGuard g s hreset hgo hrd hwr
    obtain rfl : u = t := Host.Outcome.next.inj (hu.symm.trans he)
    exact hwith
  · obtain ⟨u, hu, hwith⟩ := exec_withHold h s hreset hidle hrd hwr
    obtain rfl : u = t := Host.Outcome.next.inj (hu.symm.trans he)
    exact hwith

/-- Settles O1, field by field of the state that RESET answers; its buffers have the sizes of the parameters. -/
theorem resetGivesEveryFieldItsResetValue : Obligations.ResetGivesEveryFieldItsResetValue := by
  refine ⟨fun s => ⟨_, exec_reset s, ?_⟩, fun c hc => if_pos hc⟩
  simp only [State.afterReset_txen, State.afterReset_statusValue]
  simp [State.afterReset, length_freeBytes]

/-- Settles O2: each register reads its field, and each field has its value of R340. -/
theorem registersReadTheirResetValues : Obligations.RegistersReadTheirResetValues := by
  intro s
  refine ⟨_, exec_reset s, ?_⟩
  obtain ⟨hcmd, htxdata, hcrcdata⟩ := returns_zero_of_writeOnly (State.afterReset s.cfg s.port)
  exact ⟨hcmd, htxdata, hcrcdata, .of_hostRead rfl (State.afterReset_statusValue ..), .of_hostRead rfl rfl,
    .of_hostRead rfl rfl, .of_hostRead rfl rfl, .of_hostRead rfl rfl, .of_hostRead rfl rfl, .of_hostRead rfl rfl,
    .of_hostRead rfl rfl, .of_hostRead rfl rfl, .of_hostRead rfl (State.afterReset_stateValue ..), .of_hostRead rfl rfl,
    .of_hostRead rfl rfl, .of_hostRead rfl rfl, returns_zero_of_reserved _, fun _ => ⟨_, .of_hostRead rfl rfl⟩,
    fun _ => ⟨_, .of_hostRead rfl rfl⟩, fun _ => ⟨_, .of_hostRead rfl rfl⟩, State.afterReset_txen ..,
    State.afterReset_irq .., State.afterReset_txValid ..⟩

/-- Settles O53: IDLE is a phase in which no event of the line or of the timebase counts. -/
theorem quiescentBlockIgnoresLineAndTime : Obligations.QuiescentBlockIgnoresLineAndTime := by
  rintro s ⟨hidle, -⟩
  refine ⟨?_, exec_lineAccept_of_ne_send (by simp [hidle]), exec_lineIdle_of_ne_drain (by simp [hidle])⟩
  rw [exec_tick, Driver.tick_of_not_waiting (.inl hidle)]

end Sys2Proof.Proofs
end

section
/-!
SUPPORT. How an input reaches its operation: an access of the platform bus as the access of its offset (20_memory.md R60, R61,
R67), and what a step does with the input that waits first (00_scope.md R12, 30_encoding.md R96). The value a host read
returns, a function of the units and of the draw for open bytes (R69). The accumulator's state after a byte (R90).
-/

namespace Sys2Proof

/-! ## Accesses of the platform bus (R60, R61, R67) -/

section BusAccess
variable (write : Bool) (off : Offset) (v : Word)

/-- A 32-bit access inside the window decodes as the host port's word for its offset. -/
theorem decode_bus_inWindow :
    decode (.bus { write := write, addr := Config.blockBase + off.toNat, size := 4, wdata := v })
      = decode (.word (accessWord write off v)) := by
  have hwindow : off.toNat < 0x1000 := off.isLt
  simp [decode, decodeBus, hwindow]

theorem decode_accessWord :
    decode (.word (accessWord write off v))
      = if offsetAligned off then .ok (if write then decodeWrite off v else decodeRead off)
        else .error (.misaligned off) := by
  cases write
  · exact decodeWord_read 0#2 off 0#32
  · exact decodeWord_write 0#2 off v

end BusAccess

/-! ## The operations that read an offset (R69) -/

section ReadOffset
variable {i : Instr}

theorem readOffset_of_event {evt : BitVec 6} {data : Byte} (h : encode i = .word (eventWord evt data)) :
    readOffset i = none := by
  have hkind : wordKind (eventWord evt data) = 0b00#2 := wordKind_event evt 0#32 data
  simp [readOffset, h, hkind]

theorem readOffset_of_write {off : Offset} {v : Word} (h : encode i = .word (writeWord off v)) : readOffset i = none := by
  have hkind : wordKind (writeWord off v) = 0b10#2 := wordKind_access 0b10#2 0#2 off v
  simp [readOffset, h, hkind]

end ReadOffset

end Sys2Proof

namespace Sys2Proof.Machine

/-! ## A step, by the input that waits first -/

section Step
variable {s : State}

theorem step_of_empty (h : s.port.inputs = []) : step s = .refused .noInput := by
  simp only [step, h]

variable {x : Input} {rest : List Input}

theorem step_of_error {e : DecodeError} (hx : s.port.inputs = x :: rest) (hd : decode x = .error e) :
    step s = .refused (.noOperation e) := by
  simp only [step, hx, hd]

theorem step_of_ok {i : Instr} (hx : s.port.inputs = x :: rest) (hd : decode x = .ok i) :
    step s = exec i (s.beginOp i rest) := by
  simp only [step, hx, hd]

end Step

/-! ## A host read (R69, R262) -/

/-- Of the ports, a window byte depends on the draw alone. -/
theorem State.windowByte_withPort (s : State) {port : Ports} (h : port.readIndex = s.port.readIndex) (buf : List Byte)
    (n : Nat) (i : Byte) : ({ s with port := port } : State).windowByte buf n i = s.windowByte buf n i := by
  rw [State.windowByte, State.windowByte, h]

/-- What a host read returns is a function of the state, the same for every port with the same draw. -/
theorem exists_value_of_readOffset {i : Instr} {off : Offset} (h : readOffset i = some off) :
    ∃ value : State → Word, (∀ s, Returns i s (value s)) ∧
      ∀ s port, port.readIndex = s.port.readIndex → value { s with port := port } = value s := by
  cases i
  case rdRxraw | rdRxpay | rdTxbuf =>
    exact ⟨_, fun _ => .of_hostRead rfl rfl, fun s _ hdraw => congrArg zextByte (s.windowByte_withPort hdraw _ _ _)⟩
  case rdCmd | rdStatus | rdIrqen | rdErrcause | rdTxdata | rdCrc | rdCrcdata | rdGuard | rdHold | rdRxlen | rdPaylen
      | rdTxlen | rdState | rdAcclen | rdTxptr | rdTxcnt | rdRsvd200 | rdRsvd100 | rdRsvd080 | rdRsvd040 =>
    exact ⟨_, fun _ => .of_hostRead rfl rfl, fun _ _ _ => rfl⟩
  case reset | rxByte | tick | lineAccept | lineIdle => exact absurd ((readOffset_of_event rfl).symm.trans h) nofun
  case wireStart | wireEnd | wireEscape | wireData => exact nomatch h
  all_goals exact absurd ((readOffset_of_write rfl).symm.trans h) nofun

/-- Two steps that take the same host read return the same value twice and leave every unit alone. -/
theorem steps_two_reads {i : Instr} {off : Offset} {s : State} {x y : Input} (hin : s.port.inputs = [x, y])
    (hx : decode x = .ok i) (hy : decode y = .ok i) (h : readOffset i = some off) :
    ∃ t v, steps 2 s = .next t ∧ t.port.readLog = s.port.readLog ++ [v, v] ∧ s.SameUnits t := by
  obtain ⟨value, hvalue, hdraw⟩ := exists_value_of_readOffset h
  refine ⟨_, value (s.beginOp i [y]), (steps_succ_of_exec hin hx (hvalue _)).trans (steps_succ_of_exec rfl hy (hvalue _)),
    ?_, rfl⟩
  refine (List.append_assoc ..).trans (congrArg (s.port.readLog ++ [value (s.beginOp i [y]), ·]) ?_)
  exact hdraw (s.beginOp i [y]) _ (State.beginOp_readIndex_repeat _ _ _ (by simp [h]) rfl)

/-! ## Bytes of the bus (R90) -/

/-- A byte that is no delimiter leaves the accumulator's state. -/
theorem State.rxByte_rxState_of_not_delimiter (s : State) {b : Byte} (hs : b ≠ startByte) (he : b ≠ endByte) :
    (s.rxByte b).rx.rxState = s.rx.rxState := by
  cases hf : s.rx.rxState
  · rw [s.rxByte_idle b hf hs]
    exact hf
  · exact (State.rxByte_keeps_frame hf hs he).1

/-- After an END no frame is in progress. -/
theorem State.rxByte_end_rxState (s : State) : (s.rxByte endByte).rx.rxState = .idle := by
  cases hf : s.rx.rxState
  · rw [s.rxByte_idle endByte hf endByte_ne_startByte]
    exact hf
  · rw [s.rxByte_end hf, State.endFrame]
    rfl

end Sys2Proof.Machine

namespace Sys2Proof.Proofs

open Sys2Proof Sys2Proof.Machine

/-- Settles O10: each class is the arrival of its byte, and only a delimiter changes the accumulator's state. -/
theorem busBytesActAsReceivedBytes : Obligations.BusBytesActAsReceivedBytes :=
  ⟨fun s => congrArg _ s.rxByte_start,
    fun s => ⟨_, rfl, rfl, s.rxByte_end_rxState⟩,
    fun s => ⟨_, rfl, rfl, s.rxByte_rxState_of_not_delimiter escapeByte_ne_startByte escapeByte_ne_endByte⟩,
    fun s _ hs he _ => ⟨_, rfl, rfl, s.rxByte_rxState_of_not_delimiter hs he⟩,
    fun _ => rfl⟩

/-- Settles O40: a read's value depends on the units and the draw, and a repeated read keeps both. -/
theorem readsHaveNoSideEffectsAndRepeat : Obligations.ReadsHaveNoSideEffectsAndRepeat := by
  refine ⟨fun i s off h => ?_, fun i s off x y hin hx hy h => ?_⟩
  · obtain ⟨value, hvalue, -⟩ := exists_value_of_readOffset h
    exact ⟨value s, hvalue s⟩
  · obtain ⟨t, v, ht, hlog, hunits⟩ := steps_two_reads hin hx hy h
    refine ⟨t, v, ht, hlog, ?_⟩
    rw [hunits]
    exact ⟨rfl, rfl, rfl, rfl, rfl, rfl, rfl⟩

/-- Settles O60, by the size of the access and then by the alignment of its offset. -/
theorem subwordAndMisalignedAccessesAreRefused : Obligations.SubwordAndMisalignedAccessesAreRefused := by
  refine ⟨fun a hsize => ⟨_, if_pos hsize⟩, fun write off v h => ⟨.misaligned off, ?_⟩, fun write off v h => ?_⟩
  · rw [decode_bus_inWindow, decode_accessWord, if_neg (mt (offsetAligned_iff off).1 h)]
  · have hok := (decode_accessWord write off v).trans (if_pos ((offsetAligned_iff off).2 h))
    exact ⟨_, (decode_bus_inWindow write off v).trans hok, hok⟩

/-- Settles O49: what `step` does before the operation is `State.beginOp`, written out here. -/
theorem stepRunsTheDecodedOperation : Obligations.StepRunsTheDecodedOperation := by
  intro s x rest i hx hd
  rw [step_of_ok hx hd, State.beginOp]
  simp only [Option.isSome_iff_ne_none]

/-- Settles O50, by the queue and then by what the decoder answers. -/
theorem stepIsRefusedExactlyWithoutAnOperation : Obligations.StepIsRefusedExactlyWithoutAnOperation := by
  refine fun s => ⟨step_of_empty, fun x rest e => step_of_error, fun x rest i hx hd => ?_⟩
  obtain ⟨t, ht, -, hrest⟩ := exec_next i (s.beginOp i rest)
  exact ⟨t, (step_of_ok hx hd).trans ht, hrest⟩

end Sys2Proof.Proofs
end
